-- ==== Sys2Proof/Word.lean ====
section
/-! DEFINITION. The two bit-vector widths of the block: a byte and an operation word (R18, R76). -/

namespace Sys2Proof

/-- A byte, 8 bits (R18). -/
abbrev Byte := BitVec 8

/-- An operation word, 16 bits, presented whole (R76, R57). -/
abbrev OpWord := BitVec 16

end Sys2Proof
end

