-- ==== Sys2Proof/Config.lean ====
section
/-! DEFINITION. The configuration record `Cfg` of 00_scope.md (R7 to R17), its constraints, the two constants of the
batched transport (R11), and the spec's own test configuration CfgT (95_test_vectors.md 1.1). -/

namespace Sys2Proof

/-- The transport variant (R7). -/
inductive Transport where
  | serial
  | batched
  deriving DecidableEq, Repr

/-- The indicator variant (R7). -/
inductive Indicator where
  | pwm
  | onoff
  deriving DecidableEq, Repr

/-- The five display flags that index the command table (R10). -/
inductive DispFlag where
  | pwr
  | inv
  | allon
  | fliph
  | flipv
  deriving DecidableEq, Repr

/-- Command mode or data mode; also the two levels of the DC line (R24, R105). -/
inductive LinkMode where
  | command
  | data
  deriving DecidableEq, Repr

/-- The two levels of the RST line; `low` is reset asserted (R24). -/
inductive RstLevel where
  | low
  | high
  deriving DecidableEq, Repr

/-- The two levels of the CS line (R24). -/
inductive CsLevel where
  | asserted
  | deasserted
  deriving DecidableEq, Repr

/-- The two bytes of one flag: the byte that switches it on and the byte that switches it off (R10). -/
structure OnOffBytes where
  on : Byte
  off : Byte
  deriving DecidableEq, Repr

/-- The command lookup table CMDROM, ten bytes (R10). -/
structure CmdTable where
  pwr : OnOffBytes
  inv : OnOffBytes
  allon : OnOffBytes
  fliph : OnOffBytes
  flipv : OnOffBytes
  deriving DecidableEq, Repr

/-- A power domain (R15). The spec's domains are opaque names. DESIGN CHOICE (log 20): a name says which use the domain
has, so that "must not contain a domain in use" is a check. Safe: no rule reads a name. -/
inductive Domain where
  /-- The domain of the selected transport. -/
  | transport
  /-- The domain of the indicator outputs. -/
  | indicator
  /-- The domain of a wake source. -/
  | wake (k : Nat)
  /-- Any other domain. -/
  | other (k : Nat)
  deriving DecidableEq, Repr

/-- The levels boot step 1 gives the three control lines (R16, R121). -/
structure PinInit where
  rst : RstLevel
  cs : CsLevel
  dc : LinkMode
  deriving DecidableEq, Repr

/-- The map from logical values to voltages (R16), "a record no rule reads" (log 29). -/
structure Polarity where
  csActiveLow : Bool
  dcCommandLow : Bool
  indOnLow : Bool
  deriving DecidableEq, Repr

/-- The configuration record (R7 to R17). Every field is constant for the life of a machine. -/
structure Cfg where
  transport : Transport
  indicator : Indicator
  width : Nat
  height : Nat
  bootProgram : List Byte
  cmd : CmdTable
  periphAddr : Nat
  chunkSize : Nat
  txbufCap : Nat
  nChannels : Nat
  safeCh : Nat
  tRstHoldMs : Nat
  tRstSettleMs : Nat
  spiDivisor : Nat
  unusedDomains : List Domain
  pinInit : PinInit
  pol : Polarity
  deriving DecidableEq, Repr

/-- `CTRL_CMD`, the byte that leads a command batch (R11; the assignment is the spec's D6). -/
def ctrlCmd : Byte := 0x80#8

/-- `CTRL_DATA`, the byte that leads a data batch (R11; the assignment is the spec's D6). -/
def ctrlData : Byte := 0x40#8

/-- Channel 0 is red, 1 green, 2 blue on a three-colour indicator (R161, the spec's D21). -/
def redChannel : Nat := 0
def greenChannel : Nat := 1
def blueChannel : Nat := 2

/-- `N = WIDTH * HEIGHT / 8`, the frame length in bytes (R8). -/
def Cfg.frameLen (c : Cfg) : Nat := c.width * c.height / 8

/-- `L`, the length of the boot program (R9). -/
def Cfg.bootLen (c : Cfg) : Nat := c.bootProgram.length

/-- The two bytes of flag `f` (R10). -/
def CmdTable.row (t : CmdTable) : DispFlag → OnOffBytes
  | .pwr => t.pwr
  | .inv => t.inv
  | .allon => t.allon
  | .fliph => t.fliph
  | .flipv => t.flipv

/-- `CMD[f][b]` (R10). -/
def CmdTable.byte (t : CmdTable) (f : DispFlag) (b : Bool) : Byte :=
  if b then (t.row f).on else (t.row f).off

/-- A domain that `UNUSED_DOMAINS` may hold (R15). -/
def Domain.gateable : Domain → Bool
  | .transport => false
  | .indicator => false
  | .wake _ => false
  | .other _ => true

/-- A list with no repeats, as a check. -/
def noRepeats : List Domain → Bool
  | [] => true
  | d :: ds => !ds.contains d && noRepeats ds

/-- `CMD[f][true] != CMD[f][false]` for all five flags (R10, the spec's D5). -/
def CmdTable.distinct (t : CmdTable) : Bool :=
  t.pwr.on != t.pwr.off && t.inv.on != t.inv.off && t.allon.on != t.allon.off &&
    t.fliph.on != t.fliph.off && t.flipv.on != t.flipv.off

/-- The constraints on the batched parameters, asked only of a batched machine (R12; log 21). -/
def Cfg.batchOk (c : Cfg) : Bool :=
  c.transport != .batched ||
    (decide (1 ≤ c.chunkSize) && decide (c.frameLen % c.chunkSize = 0) &&
      decide (c.chunkSize + 1 ≤ c.txbufCap) && decide (2 ≤ c.txbufCap))

/-- Every constraint the spec puts on `Cfg` (R8, R10, R12 to R15, R77). A record that breaks one is not a configuration
of this block. -/
def Cfg.wf (c : Cfg) : Bool :=
  decide (1 ≤ c.width) && decide (1 ≤ c.height) && decide (c.width * c.height % 8 = 0) &&
    decide (1 ≤ c.frameLen) && c.cmd.distinct && c.batchOk &&
    decide (1 ≤ c.nChannels) && decide (c.nChannels ≤ 16) && decide (c.safeCh < c.nChannels) &&
    decide (5 ≤ c.tRstHoldMs) && decide (5 ≤ c.tRstSettleMs) &&
    c.unusedDomains.all Domain.gateable && noRepeats c.unusedDomains

/-- The default of `PIN_INIT` (R16): `RST = High`, `CS = Deasserted`, `DC = Data`. -/
def PinInit.default : PinInit := { rst := .high, cs := .deasserted, dc := .data }

/-- CfgT with `TRANSPORT = SERIAL` and `INDICATOR = PWM`, the spec's own test configuration (95_test_vectors.md 1.1).
`SPI_DIVISOR` and `POL` have no value there. DESIGN CHOICE (log 1): 2, and every polarity "active low". Unsafe: no value
here is the hardware's. -/
def cfgT : Cfg :=
  { transport := .serial
    indicator := .pwm
    width := 8
    height := 8
    bootProgram := [0xD5#8, 0xF0#8, 0xAF#8]
    cmd :=
      { pwr := { on := 0xAF#8, off := 0xAE#8 }
        inv := { on := 0xA7#8, off := 0xA6#8 }
        allon := { on := 0xA5#8, off := 0xA4#8 }
        fliph := { on := 0xA0#8, off := 0xA1#8 }
        flipv := { on := 0xC0#8, off := 0xC8#8 } }
    periphAddr := 0x3C
    chunkSize := 4
    txbufCap := 32
    nChannels := 3
    safeCh := 0
    tRstHoldMs := 5
    tRstSettleMs := 5
    spiDivisor := 2
    unusedDomains := [.other 0, .other 1]
    pinInit := PinInit.default
    pol := { csActiveLow := true, dcCommandLow := true, indOnLow := true } }

end Sys2Proof
end

