-- ==== Sys2Proof/Syntax.lean ====
section
/-! DEFINITION. The thirteen operations of the host operation port (R75, R79, opcode_table.json), and the five
pseudo-operations (R88). -/

namespace Sys2Proof

/-- One operation, one constructor for each row of spec/opcode_table.json (R79). -/
inductive Instr where
  /-- `boot()`, opcode 0x1, format Z (R120). -/
  | boot
  /-- `paintScreen(buffer, clear)`, opcode 0x2, format F (R140). -/
  | paint (clear : Bool)
  /-- `setPower(on)`, opcode 0x3, format F (R111). -/
  | setpwr (b : Bool)
  /-- `setInverted(bool)`, opcode 0x4, format F (R112). -/
  | setinv (b : Bool)
  /-- `setAllPixelsOn(bool)`, opcode 0x5, format F (R113). -/
  | setallon (b : Bool)
  /-- `setFlipHorizontal(bool)`, opcode 0x6, format F (R114). -/
  | setfliph (b : Bool)
  /-- `setFlipVertical(bool)`, opcode 0x7, format F (R115). -/
  | setflipv (b : Bool)
  /-- `idle()`, opcode 0x8, format Z (R155). -/
  | idle
  /-- `setIndicator(channel, value)`, opcode 0x9, format C (R160). -/
  | setind (ch : BitVec 4) (v : Byte)
  /-- `exitHalt()`, opcode 0xA, format Z (R162). -/
  | exithalt
  /-- `sendCommand(byte)`, opcode 0xB, format B (R109). -/
  | sendcmd (k : Byte)
  /-- `enterCommandMode()`, opcode 0xC, format Z (R106). -/
  | entercmd
  /-- `enterDataMode()`, opcode 0xD, format Z (R108). -/
  | enterdata
  deriving DecidableEq, Repr

/-- The five pseudo-operations (R88). -/
inductive Pseudo where
  | displayoff
  | displayon
  | clear
  | display
  | invert (b : Bool)
  deriving DecidableEq, Repr

/-- The one operation each pseudo-operation stands for (R88). -/
def Pseudo.expand : Pseudo → Instr
  | .displayoff => .setpwr false
  | .displayon => .setpwr true
  | .clear => .paint true
  | .display => .paint false
  | .invert b => .setinv b

end Sys2Proof
end

