-- ==== Sys2Proof/WellFormed.lean ====
section
/-! DEFINITION. The check on an operation that is not in its shape: the channel of a SETIND (R80, R160). -/

namespace Sys2Proof

/-- An operation is well formed for a configuration: a SETIND names a channel that exists (R80), every other operation
always is. -/
def Instr.wf (c : Cfg) : Instr → Bool
  | .boot => true
  | .paint _ => true
  | .setpwr _ => true
  | .setinv _ => true
  | .setallon _ => true
  | .setfliph _ => true
  | .setflipv _ => true
  | .idle => true
  | .setind ch _ => decide (ch.toNat < c.nChannels)
  | .exithalt => true
  | .sendcmd _ => true
  | .entercmd => true
  | .enterdata => true

end Sys2Proof
end

