-- ==== Sys2Proof/Decode.lean ====
section
/-! DEFINITION. From operation words to operations and back (30_encoding.md): the opcode table of R79, the decoder of R81
with the must-be-zero checks of R77, the encoder, the two fixed entry points of the host, and the assembler text of R87
and R88. There are no bytes to order: the word is presented whole (R57). -/

namespace Sys2Proof

/-- The four formats (R77). -/
inductive WordFormat where
  | z
  | f
  | b
  | c
  deriving DecidableEq, Repr

/-- A row of the opcode map (R79), with the `match` and `mask` of opcode_table.json. -/
structure OpRow where
  mnemonic : String
  format : WordFormat
  pattern : OpWord
  deriving DecidableEq, Repr

/-- The mask of each format: `0xFFFF`, `0xFFFE`, `0xFF00`, `0xF000` (R81). -/
def WordFormat.mask : WordFormat → OpWord
  | .z => 0xFFFF#16
  | .f => 0xFFFE#16
  | .b => 0xFF00#16
  | .c => 0xF000#16

/-- The opcode map (R79): thirteen rows, in the order of the opcodes. -/
def opTable : List OpRow :=
  [ ⟨"BOOT", .z, 0x1000#16⟩, ⟨"PAINT", .f, 0x2000#16⟩, ⟨"SETPWR", .f, 0x3000#16⟩, ⟨"SETINV", .f, 0x4000#16⟩,
    ⟨"SETALLON", .f, 0x5000#16⟩, ⟨"SETFLIPH", .f, 0x6000#16⟩, ⟨"SETFLIPV", .f, 0x7000#16⟩, ⟨"IDLE", .z, 0x8000#16⟩,
    ⟨"SETIND", .c, 0x9000#16⟩, ⟨"EXITHALT", .z, 0xA000#16⟩, ⟨"SENDCMD", .b, 0xB000#16⟩, ⟨"ENTERCMD", .z, 0xC000#16⟩,
    ⟨"ENTERDATA", .z, 0xD000#16⟩ ]

/-- A word selects a row when `(w AND mask) = match` (R81). -/
def OpRow.selects (r : OpRow) (w : OpWord) : Bool := w &&& r.format.mask == r.pattern

/-- The mnemonic of an operation (R79). -/
def Instr.mnemonic : Instr → String
  | .boot => "BOOT"
  | .paint _ => "PAINT"
  | .setpwr _ => "SETPWR"
  | .setinv _ => "SETINV"
  | .setallon _ => "SETALLON"
  | .setfliph _ => "SETFLIPH"
  | .setflipv _ => "SETFLIPV"
  | .idle => "IDLE"
  | .setind _ _ => "SETIND"
  | .exithalt => "EXITHALT"
  | .sendcmd _ => "SENDCMD"
  | .entercmd => "ENTERCMD"
  | .enterdata => "ENTERDATA"

/-- Why a word is reserved (R80). -/
inductive Reserved where
  /-- The opcode is `0x0`, `0xE` or `0xF`. -/
  | opcode
  /-- `sel` must be zero and is not. -/
  | sel
  /-- A bit of `imm8` must be zero and is not. -/
  | imm
  /-- SETIND of a channel that does not exist. -/
  | channel
  deriving DecidableEq, Repr

/-- What a word decodes to: an operation, or a reserved word by name. -/
inductive Decoded where
  | ok (i : Instr)
  | reserved (why : Reserved)
  deriving DecidableEq, Repr

/-- `opcode = op_word[15:12]` (R76). -/
def opcodeOf (w : OpWord) : BitVec 4 := w.extractLsb' 12 4

/-- `sel = op_word[11:8]` (R76). -/
def selOf (w : OpWord) : BitVec 4 := w.extractLsb' 8 4

/-- `imm8 = op_word[7:0]` (R76). -/
def immOf (w : OpWord) : Byte := w.extractLsb' 0 8

/-- Format Z: `sel` and `imm8` zero (R77). -/
def decodeZ (i : Instr) (sel : BitVec 4) (imm : Byte) : Decoded :=
  if sel ≠ 0#4 then .reserved .sel else if imm ≠ 0#8 then .reserved .imm else .ok i

/-- Format F: `sel` and `imm8[7:1]` zero, the Boolean in bit 0 (R77, R78). -/
def decodeF (op : Bool → Instr) (sel : BitVec 4) (imm : Byte) : Decoded :=
  if sel ≠ 0#4 then .reserved .sel
  else if imm.extractLsb' 1 7 ≠ 0#7 then .reserved .imm
  else .ok (op (imm.getLsbD 0))

/-- Format B: `sel` zero, the byte in `imm8` (R77, R78). -/
def decodeB (op : Byte → Instr) (sel : BitVec 4) (imm : Byte) : Decoded :=
  if sel ≠ 0#4 then .reserved .sel else .ok (op imm)

/-- The decoder of R81: opcode, format, must-be-zero fields, operands. It does not read the configuration: the channel
of a SETIND is checked where the word is accepted (`decodeFor`; log 23). -/
def decode (w : OpWord) : Decoded :=
  match (opcodeOf w).toNat with
  | 1 => decodeZ .boot (selOf w) (immOf w)
  | 2 => decodeF .paint (selOf w) (immOf w)
  | 3 => decodeF .setpwr (selOf w) (immOf w)
  | 4 => decodeF .setinv (selOf w) (immOf w)
  | 5 => decodeF .setallon (selOf w) (immOf w)
  | 6 => decodeF .setfliph (selOf w) (immOf w)
  | 7 => decodeF .setflipv (selOf w) (immOf w)
  | 8 => decodeZ .idle (selOf w) (immOf w)
  | 9 => .ok (.setind (selOf w) (immOf w))
  | 10 => decodeZ .exithalt (selOf w) (immOf w)
  | 11 => decodeB .sendcmd (selOf w) (immOf w)
  | 12 => decodeZ .entercmd (selOf w) (immOf w)
  | 13 => decodeZ .enterdata (selOf w) (immOf w)
  | _ => .reserved .opcode

/-- The decoder for a machine with configuration `c`: a SETIND of a channel that does not exist is reserved too (R80). -/
def decodeFor (c : Cfg) (w : OpWord) : Decoded :=
  match decode w with
  | .ok i => if i.wf c then .ok i else .reserved .channel
  | .reserved why => .reserved why

/-- The word with the given fields (R76). -/
def packWord (opcode sel : BitVec 4) (imm : Byte) : OpWord := opcode ++ sel ++ imm

/-- A Boolean in bit 0 of `imm8`, bits 7:1 zero (R76). -/
def boolImm (b : Bool) : Byte := if b then 1#8 else 0#8

/-- The one word of an operation (R79, D24). -/
def encode : Instr → OpWord
  | .boot => packWord 0x1#4 0#4 0#8
  | .paint clear => packWord 0x2#4 0#4 (boolImm clear)
  | .setpwr b => packWord 0x3#4 0#4 (boolImm b)
  | .setinv b => packWord 0x4#4 0#4 (boolImm b)
  | .setallon b => packWord 0x5#4 0#4 (boolImm b)
  | .setfliph b => packWord 0x6#4 0#4 (boolImm b)
  | .setflipv b => packWord 0x7#4 0#4 (boolImm b)
  | .idle => packWord 0x8#4 0#4 0#8
  | .setind ch v => packWord 0x9#4 ch v
  | .exithalt => packWord 0xA#4 0#4 0#8
  | .sendcmd k => packWord 0xB#4 0#4 k
  | .entercmd => packWord 0xC#4 0#4 0#8
  | .enterdata => packWord 0xD#4 0#4 0#8

/-- The word numbered as opcode_table.json numbers it, `nbits` bits of it given and the bits above them zero. -/
def tableWord (nbits w : Nat) : OpWord := BitVec.ofNat 16 (w % 2 ^ nbits)

/-- What the decoder reads from the bits `w` (host entry point). -/
def decodeTableWord (nbits w : Nat) : Option Instr :=
  match decode (tableWord nbits w) with
  | .ok i => some i
  | .reserved _ => none

/-! ### Assembler text (R87, R88), on lists of characters (log 30) -/

/-- A blank. -/
def isBlank (c : Char) : Bool := c == ' ' || c == '\t'

/-- A line without its comment, which starts with `;` (R87). -/
def stripComment (l : List Char) : List Char := l.takeWhile (· != ';')

/-- A text without the blanks around it. -/
def trimBlanks (l : List Char) : List Char := ((l.dropWhile isBlank).reverse.dropWhile isBlank).reverse

/-- The parts of a text between separators. -/
def splitOn (sep : Char) : List Char → List (List Char)
  | [] => [[]]
  | c :: cs =>
    if c = sep then [] :: splitOn sep cs
    else match splitOn sep cs with
      | [] => [[c]]
      | p :: ps => (c :: p) :: ps

/-- The value of a hexadecimal digit. -/
def hexDigit (c : Char) : Option Nat :=
  let n := c.toNat
  if 48 ≤ n ∧ n ≤ 57 then some (n - 48)
  else if 65 ≤ n ∧ n ≤ 70 then some (n - 55)
  else if 97 ≤ n ∧ n ≤ 102 then some (n - 87)
  else none

/-- The value of a decimal digit. -/
def decDigit (c : Char) : Option Nat :=
  let n := c.toNat
  if 48 ≤ n ∧ n ≤ 57 then some (n - 48) else none

/-- A number read digit by digit, most significant first. -/
def readDigits (base : Nat) (digit : Char → Option Nat) (acc : Nat) : List Char → Option Nat
  | [] => some acc
  | c :: cs =>
    match digit c with
    | some d => readDigits base digit (acc * base + d) cs
    | none => none

/-- A Boolean operand: `0`, `1`, `false` or `true` (R87). -/
def readBool (l : List Char) : Option Bool :=
  if l = ['0'] ∨ l = ['f', 'a', 'l', 's', 'e'] then some false
  else if l = ['1'] ∨ l = ['t', 'r', 'u', 'e'] then some true
  else none

/-- A byte operand, `0x..`, one or two hexadecimal digits (R87). -/
def readByte : List Char → Option Byte
  | ['0', 'x', a] => (readDigits 16 hexDigit 0 [a]).map (BitVec.ofNat 8)
  | ['0', 'x', a, b] => (readDigits 16 hexDigit 0 [a, b]).map (BitVec.ofNat 8)
  | _ => none

/-- A channel operand, a decimal integer below 16 (R87, R77). -/
def readChannel (l : List Char) : Option (BitVec 4) :=
  match l with
  | [] => none
  | _ :: _ =>
    match readDigits 10 decDigit 0 l with
    | some n => if n < 16 then some (BitVec.ofNat 4 n) else none
    | none => none

/-- A mnemonic with no operand (R87, R88). -/
def asmZ (m : List Char) : Option Instr :=
  if m = ['B', 'O', 'O', 'T'] then some .boot
  else if m = ['I', 'D', 'L', 'E'] then some .idle
  else if m = ['E', 'X', 'I', 'T', 'H', 'A', 'L', 'T'] then some .exithalt
  else if m = ['E', 'N', 'T', 'E', 'R', 'C', 'M', 'D'] then some .entercmd
  else if m = ['E', 'N', 'T', 'E', 'R', 'D', 'A', 'T', 'A'] then some .enterdata
  else if m = ['D', 'I', 'S', 'P', 'L', 'A', 'Y', 'O', 'F', 'F'] then some Pseudo.displayoff.expand
  else if m = ['D', 'I', 'S', 'P', 'L', 'A', 'Y', 'O', 'N'] then some Pseudo.displayon.expand
  else if m = ['C', 'L', 'E', 'A', 'R'] then some Pseudo.clear.expand
  else if m = ['D', 'I', 'S', 'P', 'L', 'A', 'Y'] then some Pseudo.display.expand
  else none

/-- A mnemonic with one Boolean (R87, R88). -/
def asmF (m : List Char) (b : Bool) : Option Instr :=
  if m = ['P', 'A', 'I', 'N', 'T'] then some (.paint b)
  else if m = ['S', 'E', 'T', 'P', 'W', 'R'] then some (.setpwr b)
  else if m = ['S', 'E', 'T', 'I', 'N', 'V'] then some (.setinv b)
  else if m = ['S', 'E', 'T', 'A', 'L', 'L', 'O', 'N'] then some (.setallon b)
  else if m = ['S', 'E', 'T', 'F', 'L', 'I', 'P', 'H'] then some (.setfliph b)
  else if m = ['S', 'E', 'T', 'F', 'L', 'I', 'P', 'V'] then some (.setflipv b)
  else if m = ['I', 'N', 'V', 'E', 'R', 'T'] then some (Pseudo.invert b).expand
  else none

/-- One operation from its mnemonic and operands (R87). -/
def asmOp (m : List Char) (args : List (List Char)) : Option Instr :=
  match args with
  | [] => asmZ m
  | [a] =>
    if m = ['S', 'E', 'N', 'D', 'C', 'M', 'D'] then (readByte a).map .sendcmd
    else match readBool a with
      | some b => asmF m b
      | none => none
  | [a, v] =>
    if m = ['S', 'E', 'T', 'I', 'N', 'D'] then
      match readChannel a, readByte v with
      | some ch, some x => some (.setind ch x)
      | _, _ => none
    else none
  | _ => none

/-- One line of a program: mnemonic first, operands separated by commas (R87). An empty line or a comment gives `none`
too: it is no operation. -/
def assembleLine (l : List Char) : Option Instr :=
  let text := trimBlanks (stripComment l)
  let m := text.takeWhile (fun c => !isBlank c)
  let rest := trimBlanks (text.dropWhile (fun c => !isBlank c))
  asmOp m (if rest = [] then [] else (splitOn ',' rest).map trimBlanks)

/-- The hexadecimal digit of a value below 16. -/
def hexChar (n : Nat) : Char := if n < 10 then Char.ofNat (48 + n) else Char.ofNat (55 + n)

/-- A byte as text, `0x..` (R87). -/
def byteText (v : Byte) : List Char := ['0', 'x', hexChar (v.toNat / 16), hexChar (v.toNat % 16)]

/-- A channel as text, a decimal integer (R87). -/
def channelText (ch : BitVec 4) : List Char :=
  if ch.toNat < 10 then [hexChar ch.toNat] else ['1', hexChar (ch.toNat - 10)]

/-- A Boolean as text (R87). -/
def boolText (b : Bool) : List Char := if b then ['1'] else ['0']

/-- An operation as assembler text (R87). -/
def Instr.text : Instr → List Char
  | .boot => ['B', 'O', 'O', 'T']
  | .paint b => ['P', 'A', 'I', 'N', 'T', ' '] ++ boolText b
  | .setpwr b => ['S', 'E', 'T', 'P', 'W', 'R', ' '] ++ boolText b
  | .setinv b => ['S', 'E', 'T', 'I', 'N', 'V', ' '] ++ boolText b
  | .setallon b => ['S', 'E', 'T', 'A', 'L', 'L', 'O', 'N', ' '] ++ boolText b
  | .setfliph b => ['S', 'E', 'T', 'F', 'L', 'I', 'P', 'H', ' '] ++ boolText b
  | .setflipv b => ['S', 'E', 'T', 'F', 'L', 'I', 'P', 'V', ' '] ++ boolText b
  | .idle => ['I', 'D', 'L', 'E']
  | .setind ch v => ['S', 'E', 'T', 'I', 'N', 'D', ' '] ++ channelText ch ++ [',', ' '] ++ byteText v
  | .exithalt => ['E', 'X', 'I', 'T', 'H', 'A', 'L', 'T']
  | .sendcmd k => ['S', 'E', 'N', 'D', 'C', 'M', 'D', ' '] ++ byteText k
  | .entercmd => ['E', 'N', 'T', 'E', 'R', 'C', 'M', 'D']
  | .enterdata => ['E', 'N', 'T', 'E', 'R', 'D', 'A', 'T', 'A']

end Sys2Proof
end

