-- ==== Sys2Proof/Machine/State.lean ====
section
/-! DEFINITION. State, as plain data (10_state.md R29 to R45, with the inputs of R28), the refusals of R175, and reset
(R47, R48). INVENTORY.md's '## State' lists every field with its rule and reset value. -/

namespace Sys2Proof.Machine

/-- The sequencer micro-state, in the order of R31's table. -/
inductive MicroState where
  | wBoot
  | b1Pins
  | b1Safe
  | b2Bus
  | b3RstLo
  | b3Hold
  | b3RstHi
  | b3Settle
  | b4Cs
  | b5Cmd
  | b5Prog
  | b6Data
  | b7Pwr
  | ready
  | cEnter
  | cSend
  | cRestore
  | pFetch
  | pSend
  | pDrain
  | qOpen
  | qFill
  | qClose
  | iSleep
  | xIrq
  | xLink
  | xHandoff
  | hSafe
  | hLoader
  deriving DecidableEq, Repr

/-- The top-level power and process state (R30). -/
inductive Phase where
  | boot
  | running
  | idle
  | safeHalt
  | loaderHalt
  deriving DecidableEq, Repr

/-- The register `mode`: "`Command` or `Data`, or no value" (R34). `noValue` is its value from reset to boot step 5a
(log 4). -/
inductive ModeReg where
  | noValue
  | holds (m : LinkMode)
  deriving DecidableEq, Repr

/-- A line latch: "the value last driven", "or `Undriven` before boot step 1" (R37). -/
inductive Latch (α : Type) where
  | undriven
  | driven (v : α)
  deriving DecidableEq, Repr

/-- The value of an indicator channel: a byte on PWM, a Boolean on ONOFF (R38). -/
inductive IndVal where
  | pwm (v : Byte)
  | onoff (b : Bool)
  deriving DecidableEq, Repr

/-- One drive of a control line (R24). -/
inductive PinDrive where
  | rst (v : RstLevel)
  | cs (v : CsLevel)
  | dc (v : LinkMode)
  deriving DecidableEq, Repr

/-- The events of the trace (R27). -/
inductive Event where
  | portsInit
  | button (held : Bool)
  | ind (ch : Nat) (v : IndVal)
  | busInit (t : Transport)
  | pin (d : PinDrive)
  | delay (ms : Nat)
  | serial (b : Byte)
  | batch (addr : Nat) (bs : List Byte)
  | fbRead (i : Nat) (v : Byte)
  | pwrGate (s : List Domain)
  | sleep
  | irq
  | wake
  | irqOff
  | hostLinkOff
  | handoff
  deriving DecidableEq, Repr

/-- The FB space: (index, byte) pairs, indices strictly rising, no entry equal to `Memory.unlisted`. -/
abbrev Memory := List Host.Cell

/-- The display controller's state as the spec models it (R45). `none` is the spec's "no value". -/
structure Disp where
  powered : Option Bool
  inverted : Option Bool
  allon : Option Bool
  fliph : Option Bool
  flipv : Option Bool
  ram : List (Option Byte)
  ptr : Option Nat
  valid : Bool
  deriving DecidableEq, Repr

/-- MODEL'S OWN: what the command in C_* is, for the ghost update at its completion (R46; log 18). -/
inductive CmdSource where
  /-- A SENDCMD of the host: "an arbitrary command's effect is not stated". -/
  | raw
  /-- A mode operation of flag `f` with operand `b`. -/
  | flag (f : DispFlag) (b : Bool)
  deriving DecidableEq, Repr

/-- The platform's inputs (R25, R28, R40). -/
structure Platform where
  btnConfirm : Bool
  irqEn : Bool
  hostlinkEn : Bool
  deriving DecidableEq, Repr

/-- One move of one agent (R20). The list `sched` of State says which agent moves next (log 8). -/
inductive Move where
  /-- The block takes a micro-step, or holds if none is enabled (R31, R32). -/
  | block
  /-- The host presents an operation word (R21). -/
  | present (w : OpWord)
  /-- The host writes byte `v` at index `i` of its frame buffer (R71). -/
  | fbWrite (i : Nat) (v : Byte)
  /-- The host supplies a frame buffer with these bytes (R51). -/
  | fbSupply (bs : List Byte)
  /-- The bus environment completes the byte in the shifter (R98). -/
  | serialDone
  /-- The bus environment delivers the batch (R103). -/
  | batchDone
  /-- A hardware interrupt occurs (R157, R177). -/
  | irq
  /-- The level of the confirm button changes (R25). -/
  | button (held : Bool)
  /-- The platform sets the interrupt and host-link enables (R40). -/
  | platform (irqEn hostlinkEn : Bool)
  /-- Another agent drives the bus or a control line (R199). -/
  | foreignDrive
  /-- The process starts again, with these platform inputs (R47). -/
  | reset (p : Platform)
  deriving DecidableEq, Repr

/-- The state of the machine. -/
structure State where
  cfg : Cfg
  seq : MicroState
  phase : Phase
  bpIdx : Nat
  ftIdx : Nat
  ckIdx : Nat
  clr : Bool
  lat : Byte
  busReady : Bool
  spiBusy : Bool
  txOpen : Bool
  txBusy : Bool
  mode : ModeReg
  spiDr : Byte
  txBuf : List Byte
  rst : Latch RstLevel
  cs : Latch CsLevel
  dc : Latch LinkMode
  ind : List IndVal
  pwrGated : List Domain
  irqEn : Bool
  hostlinkEn : Bool
  trace : List Event
  disp : Disp
  cmdSrc : CmdSource
  btnConfirm : Bool
  fb : Memory
  fbLen : Nat
  sched : List Move
  deriving DecidableEq, Repr

/-- The reasons a step may stop with a fault: there are none. "The block raises no synchronous exception" (R170), and
"fault is never used" (93_implementation_defined.md Part 1; log 31). -/
inductive Fault where
  deriving DecidableEq, Repr

/-- The reasons a request is refused (R175). -/
inductive Refusal where
  /-- Raised by `exec` for an operation with no meaning yet: none in this model. Safe. -/
  | notModelled (mnemonic : String)
  /-- Raised on acceptance of a reserved word (R80, R175). Safe. -/
  | reservedWord (why : Reserved)
  /-- Raised by every operation but BOOT and EXITHALT while `seq = W_BOOT` (R192). Safe. -/
  | notBooted
  /-- Raised by BOOT while `seq = READY` (R193). Safe. -/
  | secondBoot
  /-- Raised by every operation while the block is not ready (R175). Safe. -/
  | notReady
  /-- Raised by PAINT when FB holds fewer than `N` bytes (R72, R175; log 15). Safe. -/
  | fbTooShort
  /-- Raised by a host write to FB while a PAINT is in progress (R71, R175). Safe. -/
  | fbBusy
  /-- Raised by a frame-buffer access outside the buffer: a host write at an index it does not have, or an `FbRead`
  outside R52's precondition (unreachable from an accepted PAINT; log 16). Safe. -/
  | fbOutOfRange
  /-- Raised by `XFER` and `TXBEGIN` with `bus_ready = false`, unreachable through the operations (R96, R175). Safe. -/
  | busNotReady
  /-- Raised by `TXBEGIN` with a batch open, `TXWRITE` or `TXEND` with none, unreachable (R100 to R102; log 14). Safe. -/
  | batchProtocol
  /-- Raised by `TXWRITE` past `TXBUF_CAP`, unreachable (R101; log 14). Safe. -/
  | batchOverflow
  /-- Raised by any other agent driving the bus or the control lines (R175, R199). Safe. -/
  | foreignDriver
  /-- Raised by a platform write of the enables once EXITHALT is accepted, when they are the block's (R40; log 17). Safe. -/
  | platformAfterExit
  deriving DecidableEq, Repr

/-- What a step answers. -/
abbrev Out := Host.Outcome State Fault Refusal

/-- What the block's next micro-step is: performed, not enabled (an `await` or a `require` that waits, a ready or a
terminal state), or refused (R19, R173). -/
inductive Micro where
  | go (s : State)
  | wait
  | refuse (r : Refusal)
  deriving DecidableEq, Repr

/-- `IND_OFF` of a variant (R13, the spec's D10). -/
def IndVal.offOf : Indicator → IndVal
  | .pwm => .pwm 0x00#8
  | .onoff => .onoff false

/-- The ghost state at reset: every field without a value, `valid` true (R46, R48). -/
def Disp.reset (n : Nat) : Disp :=
  { powered := none, inverted := none, allon := none, fliph := none, flipv := none
    ram := List.replicate n none, ptr := none, valid := true }

/-- The state after a reset of a machine with configuration `c` and platform inputs `p` (R48). DESIGN CHOICE (log 2, 3,
6, 7): the working registers and `spi_dr` are zero, every channel is `IND_OFF`, FB lists nothing and has `N` bytes. -/
def State.resetWith (c : Cfg) (p : Platform) : State :=
  { cfg := c
    seq := .wBoot
    phase := .boot
    bpIdx := 0
    ftIdx := 0
    ckIdx := 0
    clr := false
    lat := 0x00#8
    busReady := false
    spiBusy := false
    txOpen := false
    txBusy := false
    mode := .noValue
    spiDr := 0x00#8
    txBuf := []
    rst := .undriven
    cs := .undriven
    dc := .undriven
    ind := List.replicate c.nChannels (IndVal.offOf c.indicator)
    pwrGated := []
    irqEn := p.irqEn
    hostlinkEn := p.hostlinkEn
    trace := []
    disp := Disp.reset c.frameLen
    cmdSrc := .raw
    btnConfirm := p.btnConfirm
    fb := []
    fbLen := c.frameLen
    sched := [] }

/-- The state after reset of the one machine the host's interface asks for: configuration CfgT and every platform input
false. DESIGN CHOICE (log 1, 5). -/
def State.reset : State := State.resetWith cfgT { btnConfirm := false, irqEn := false, hostlinkEn := false }

end Sys2Proof.Machine
end

