-- ==== Sys2Proof/Machine/Memory.lean ====
section
/-! DEFINITION. The FB address space as a list of (index, byte) pairs in one canonical form (20_memory.md R50, R51). -/

namespace Sys2Proof.Machine

/-- What an index that is not listed reads as. The source gives no contents. DESIGN CHOICE (log 6), unsafe. -/
def Memory.unlisted : Byte := 0x00#8

/-- The byte at index `a`. -/
def Memory.read : Memory → Nat → Byte
  | [], _ => Memory.unlisted
  | (b, x) :: rest, a => if a = b then x else Memory.read rest a

/-- Every listed index is at least `lo`, the indices rise strictly, and no entry reads as an unlisted one. -/
def Memory.wfFrom : Nat → Memory → Bool
  | _, [] => true
  | lo, (a, x) :: rest => decide (lo ≤ a) && x != Memory.unlisted && Memory.wfFrom (a + 1) rest

/-- The canonical form. -/
def Memory.wf (m : Memory) : Bool := Memory.wfFrom 0 m

/-- An entry in front of a memory, unless it reads as an unlisted one. -/
def Memory.put (a : Nat) (v : Byte) (m : Memory) : Memory := if v = Memory.unlisted then m else (a, v) :: m

/-- The memory with byte `v` at index `a`, in canonical form if it was. -/
def Memory.write : Memory → Nat → Byte → Memory
  | [], a, v => Memory.put a v []
  | (b, x) :: rest, a, v =>
    if a < b then Memory.put a v ((b, x) :: rest)
    else if a = b then Memory.put a v rest
    else (b, x) :: Memory.write rest a v

/-- The memory that holds the bytes of a buffer from index `k` on. -/
def Memory.ofBytesFrom : Nat → List Byte → Memory
  | _, [] => []
  | k, v :: vs => Memory.put k v (Memory.ofBytesFrom (k + 1) vs)

/-- The memory that holds a buffer, byte 0 first (R51). -/
def Memory.ofBytes (vs : List Byte) : Memory := Memory.ofBytesFrom 0 vs

end Sys2Proof.Machine
end

