-- ==== Sys2Proof/Machine/Operands.lean ====
section
/-! DEFINITION. Operands and the values computed from them: the constant tables BOOTROM and CMDROM (R53, R54), the
indicator values (R13, R159, R160), the bit order of the serial link (R56), the bytes of a frame (R140). The operand
fields of the operation word are assembled in Decode.lean (R78). -/

namespace Sys2Proof.Machine

/-- `BootRom(i) = BOOT_PROGRAM[i]` for `0 <= i < L`, the byte there if any (R53). -/
def bootRom (c : Cfg) (i : Nat) : Option Byte := c.bootProgram[i]?

/-- `CmdRom(f, b) = CMD[f][b]` (R54). -/
def cmdRom (c : Cfg) (f : DispFlag) (b : Bool) : Byte := c.cmd.byte f b

/-- `IND_OFF` (R13). -/
def indOff (c : Cfg) : IndVal := IndVal.offOf c.indicator

/-- `IND_ON` (R13, the spec's D10): `0xFF` on PWM, `true` on ONOFF. -/
def indOn (c : Cfg) : IndVal :=
  match c.indicator with
  | .pwm => .pwm 0xFF#8
  | .onoff => .onoff true

/-- The value SETIND stores for `v`: the byte on PWM, `v != 0` on ONOFF (R160). -/
def indValue (c : Cfg) (v : Byte) : IndVal :=
  match c.indicator with
  | .pwm => .pwm v
  | .onoff => .onoff (v != 0#8)

/-- The bits of a byte in the order they leave on the serial link, `b[7]` first (R56). -/
def serialBits (b : Byte) : List Bool :=
  [b.getLsbD 7, b.getLsbD 6, b.getLsbD 5, b.getLsbD 4, b.getLsbD 3, b.getLsbD 2, b.getLsbD 1, b.getLsbD 0]

/-- `d_i`, the `i`-th byte a PAINT sends: `0x00` if `clr`, else `FB[i]` (R140). -/
def frameByte (clr : Bool) (fb : Memory) (i : Nat) : Byte := if clr then 0x00#8 else fb.read i

/-- `d_lo, ..., d_(lo + n - 1)`. -/
def frameBytes (clr : Bool) (fb : Memory) (lo n : Nat) : List Byte :=
  (List.range n).map fun k => frameByte clr fb (lo + k)

/-- The batch of one command byte, `[0x80, c]` (R84). -/
def cmdBatch (c : Byte) : List Byte := [ctrlCmd, c]

/-- The batch of one chunk of pixel bytes, `[0x40] ++ chunk` (R84). -/
def dataBatch (chunk : List Byte) : List Byte := ctrlData :: chunk

end Sys2Proof.Machine
end

