-- ==== Sys2Proof/Machine/Flags.lean ====
section
/-! DEFINITION. The flags of R34 (each set and cleared in one place), the mode register with its line (R105 to R108), and
the derived predicates of R41. -/

namespace Sys2Proof.Machine

/-- `emit e`: append an event to the trace (R19). -/
def State.emit (s : State) (e : Event) : State := { s with trace := s.trace ++ [e] }

/-- `seq <- q` (R18). -/
def State.goto (s : State) (q : MicroState) : State := { s with seq := q }

/-- Drive RST (R24, R37). -/
def State.driveRst (s : State) (v : RstLevel) : State := { s with rst := .driven v, trace := s.trace ++ [.pin (.rst v)] }

/-- Drive CS (R24, R37). -/
def State.driveCs (s : State) (v : CsLevel) : State := { s with cs := .driven v, trace := s.trace ++ [.pin (.cs v)] }

/-- The `mode` register gets `m`; on SERIAL the DC line is driven too, on BATCHED nothing appears on the bus
(R106, R107, R108). -/
def State.enterMode (s : State) (m : LinkMode) : State :=
  match s.cfg.transport with
  | .serial => { s with dc := .driven m, mode := .holds m, trace := s.trace ++ [.pin (.dc m)] }
  | .batched => { s with mode := .holds m }

/-- `ready` (R41, R21). -/
def State.isReady (s : State) : Bool := s.seq = .wBoot || s.seq = .ready

/-- `halted` (R41). -/
def State.halted (s : State) : Bool := s.seq = .hSafe || s.seq = .hLoader

/-- `bus_idle` (R41). -/
def State.busIdle (s : State) : Bool :=
  match s.cfg.transport with
  | .serial => !s.spiBusy
  | .batched => !s.txBusy && !s.txOpen

/-- A micro-state of the boot sequence before its end, or of its safe-mode halt (R31). -/
def MicroState.inBoot : MicroState → Bool
  | .wBoot | .b1Pins | .b1Safe | .b2Bus | .b3RstLo | .b3Hold | .b3RstHi | .b3Settle | .b4Cs | .b5Cmd | .b5Prog
  | .b6Data | .b7Pwr | .hSafe => true
  | _ => false

/-- `booted` (R41): boot step 7 has completed. An X_* or H_LOADER state reached from W_BOOT has `bus_ready = false`, one
reached from READY has it true. DEDUCED (log 25). -/
def State.booted (s : State) : Bool := !s.seq.inBoot && s.busReady

/-- A PAINT is in progress: `seq` is `P_*` or `Q_*` (R71). -/
def State.painting (s : State) : Bool :=
  match s.seq with
  | .pFetch | .pSend | .pDrain | .qOpen | .qFill | .qClose => true
  | _ => false

/-- EXITHALT has been accepted: `seq` is `X_*` or `H_LOADER` (R162, R163). -/
def State.exiting (s : State) : Bool :=
  match s.seq with
  | .xIrq | .xLink | .xHandoff | .hLoader => true
  | _ => false

end Sys2Proof.Machine
end

