-- ==== Sys2Proof/Machine/Ghost.lean ====
section
/-! DEFINITION. The ghost state of the display controller (R44 to R46): how each completed operation changes it. It is the
spec's optional environment model; its assumptions about a real controller are the spec's D15 (log 19). -/

namespace Sys2Proof.Machine

/-- `valid <- false`: every other field has "no value" for the rest of the run (R45). -/
def Disp.invalidate (d : Disp) : Disp :=
  { powered := none, inverted := none, allon := none, fliph := none, flipv := none
    ram := d.ram.map fun _ => none, ptr := none, valid := false }

/-- The flag `f` gets `b`; nothing else changes (R46). -/
def Disp.setFlag (d : Disp) (f : DispFlag) (b : Bool) : Disp :=
  match f with
  | .pwr => { d with powered := some b }
  | .inv => { d with inverted := some b }
  | .allon => { d with allon := some b }
  | .fliph => { d with fliph := some b }
  | .flipv => { d with flipv := some b }

/-- One pixel byte: `ram[ptr] <- v; ptr <- (ptr + 1) mod N` (R46). With no pointer the byte may have gone anywhere, so no
entry keeps a value. DESIGN CHOICE (log 18), unreachable. -/
def Disp.pixel (n : Nat) (d : Disp) (v : Byte) : Disp :=
  match d.ptr with
  | some p => { d with ram := d.ram.set p (some v), ptr := some ((p + 1) % n) }
  | none => { d with ram := d.ram.map fun _ => none }

/-- The ghost after BOOT completes: `ptr <- 0` (R46). -/
def Disp.afterBoot (d : Disp) : Disp := if d.valid then { d with ptr := some 0 } else d

/-- The ghost after a command operation completes (R46). -/
def Disp.afterCommand (d : Disp) (src : CmdSource) : Disp :=
  match src with
  | .raw => if d.valid then d.invalidate else d
  | .flag f b => if d.valid then d.setFlag f b else d

/-- The pixel bytes of a PAINT were read as pixels: always on BATCHED, on SERIAL when `mode = Data` (R46, R141). -/
def State.pixelsRead (s : State) : Bool :=
  match s.cfg.transport with
  | .serial => s.mode = .holds .data
  | .batched => true

/-- The ghost after a PAINT completes (R46). -/
def State.dispAfterPaint (s : State) : Disp :=
  if s.disp.valid then
    if s.pixelsRead then
      (frameBytes s.clr s.fb 0 s.cfg.frameLen).foldl (Disp.pixel s.cfg.frameLen) s.disp
    else s.disp.invalidate
  else s.disp

end Sys2Proof.Machine
end

