-- ==== Sys2Proof/Machine/Ops.lean ====
section
/-! DEFINITION. The named operations every family shares: acceptance (R21), the frame-buffer read (R52), the Peripheral Bus
Driver primitives (40_bus_driver.md), and the entries and exits that stand where another machine has traps (R179, R180).
The block has no exception (R170): there is no saved register, no vector and no trap return. -/

namespace Sys2Proof.Machine

/-! ### Micro-steps -/

/-- One part of a micro-step after another. -/
def Micro.andThen (m : Micro) (k : State → Micro) : Micro :=
  match m with
  | .go s => k s
  | .wait => .wait
  | .refuse r => .refuse r

/-- What a turn of the block answers: where no micro-step is enabled the block holds (R19 `await`, R173; log 9, 10). -/
def Micro.turn (s : State) (m : Micro) : Out :=
  match m with
  | .go t => .next t
  | .wait => .next s
  | .refuse r => .refused r

/-- `await c` (R19). -/
def await (c : Bool) (k : Micro) : Micro := if c then k else .wait

/-! ### Acceptance (R21, R175) -/

/-- The operations "callable any time after boot": accepted only when `seq = READY` (R192, R175). -/
def acceptReady (s : State) (t : Out) : Out :=
  if s.seq = .ready then t else if s.seq = .wBoot then .refused .notBooted else .refused .notReady

/-! ### The frame buffer (R52) -/

/-- `FbRead(i)`: the byte `v` at index `i`, and the event `EvFbRead(i, v)`; it changes nothing else. Outside R52's
precondition, or past the host's buffer, it is refused (R72; log 16). -/
def fbRead (s : State) (i : Nat) (k : Byte → State → Micro) : Micro :=
  if i < s.cfg.frameLen ∧ i < s.fbLen then k (s.fb.read i) (s.emit (.fbRead i (s.fb.read i)))
  else .refuse .fbOutOfRange

/-- The next byte of the frame: `0x00` with no read if `clr`, else `FbRead(ft_idx)` (R143, R144, R145). -/
def nextPixel (s : State) (k : Byte → State → Micro) : Micro :=
  if s.clr then k 0x00#8 s else fbRead s s.ftIdx k

/-! ### Peripheral Bus Driver, internal primitives (R95 to R103) -/

/-- `INITBUS` (R95 on SERIAL, R99 on BATCHED). -/
def initBus (s : State) : State :=
  match s.cfg.transport with
  | .serial => { s with busReady := true, spiBusy := false, trace := s.trace ++ [.busInit .serial] }
  | .batched =>
    { s with
      busReady := true, txOpen := false, txBusy := false, txBuf := [], trace := s.trace ++ [.busInit .batched] }

/-- `XFER(b)`, start (R96). With `bus_ready = false` it is refused; with a byte in flight the sequencer "does not start
the byte; it waits" (R96, R97; log 13). -/
def xferStart (b : Byte) (s : State) : Micro :=
  if s.busReady then
    if s.spiBusy then .wait else .go { s with spiDr := b, spiBusy := true }
  else .refuse .busNotReady

/-- `TXBEGIN` (R100). While a batch is being flushed the sequencer waits (R100; log 14). -/
def txBegin (s : State) : Micro :=
  if s.busReady then
    if s.txOpen then .refuse .batchProtocol
    else if s.txBusy then .wait
    else .go { s with txBuf := [], txOpen := true }
  else .refuse .busNotReady

/-- `TXWRITE(b)` (R101). -/
def txWrite (b : Byte) (s : State) : Micro :=
  if s.txOpen then
    if s.txBuf.length < s.cfg.txbufCap then .go { s with txBuf := s.txBuf ++ [b] } else .refuse .batchOverflow
  else .refuse .batchProtocol

/-- `TXEND` start, its first three lines (R102). The `await not tx_busy` is in the micro-states that use it. -/
def txEndStart (s : State) : Micro :=
  if s.txOpen then .go { s with txOpen := false, txBusy := true } else .refuse .batchProtocol

/-- `SerialDone`, a step of the bus environment, enabled when `spi_busy`; not enabled, nothing happens (R98; log 9). -/
def serialDone (s : State) : State :=
  if s.spiBusy then { s with spiBusy := false, trace := s.trace ++ [.serial s.spiDr] } else s

/-- `BatchDone`, a step of the bus environment, enabled when `tx_busy`; not enabled, nothing happens (R103; log 9). -/
def batchDone (s : State) : State :=
  if s.txBusy then
    { s with txBusy := false, txBuf := [], trace := s.trace ++ [.batch s.cfg.periphAddr s.txBuf] }
  else s

/-! ### The entries and exits of R179 and R180 -/

/-- Entry to `H_SAFE`: one indicator lit, nothing saved (R122, R179). -/
def enterSafeHalt (s : State) : State :=
  { s with
    ind := s.ind.set s.cfg.safeCh (indOn s.cfg)
    trace := s.trace ++ [.ind s.cfg.safeCh (indOn s.cfg)]
    seq := .hSafe
    phase := .safeHalt }

/-- Entry to `H_LOADER`: nothing saved, `EvHandoff` (R163, R179). -/
def enterLoaderHalt (s : State) : State :=
  { s with trace := s.trace ++ [.handoff], seq := .hLoader, phase := .loaderHalt }

/-- Entry to `I_SLEEP`: nothing saved, `EvSleep` (R155, R179). -/
def enterSleep (s : State) : State :=
  { s with trace := s.trace ++ [.sleep], seq := .iSleep, phase := .idle }

/-- `Wake`, a step of the interrupt environment, enabled when `seq = I_SLEEP and irq_en`; it restores nothing because
nothing was changed (R157, R180). An interrupt that does not wake is invisible to the block (R177). -/
def wake (s : State) : State :=
  if s.seq = .iSleep ∧ s.irqEn = true then
    { s with trace := s.trace ++ [.irq, .wake], seq := .ready, phase := .running }
  else s

end Sys2Proof.Machine
end

