-- ==== Sys2Proof/Machine/Boot.lean ====
section
/-! DEFINITION. The Boot Sequencer (42_boot_sequencer.md): BOOT and the micro-states B*. -/

namespace Sys2Proof.Machine

/-- BOOT: accepted only when `seq = W_BOOT`; a second one is refused (R120, R193). -/
def execBoot (s : State) : Out :=
  if s.seq = .wBoot then .next (s.goto .b1Pins)
  else if s.seq = .ready then .refused .secondBoot
  else .refused .notReady

/-- `B1_PINS`, port initialisation (R121). -/
def microB1Pins (s : State) : Micro :=
  .go { s with
    rst := .driven s.cfg.pinInit.rst
    cs := .driven s.cfg.pinInit.cs
    dc := .driven s.cfg.pinInit.dc
    ind := List.replicate s.cfg.nChannels (indOff s.cfg)
    trace := s.trace ++ [.portsInit]
    seq := .b1Safe }

/-- `B1_SAFE`, the safe-mode check (R122). -/
def microB1Safe (s : State) : Micro :=
  let t := s.emit (.button s.btnConfirm)
  if s.btnConfirm then .go (enterSafeHalt t) else .go (t.goto .b2Bus)

/-- `B2_BUS`, transport initialisation (R123). -/
def microB2Bus (s : State) : Micro := .go ((initBus s).goto .b3RstLo)

/-- `B3_RST_LO` (R124). -/
def microB3RstLo (s : State) : Micro := .go ((s.driveRst .low).goto .b3Hold)

/-- `B3_HOLD` (R124). -/
def microB3Hold (s : State) : Micro := .go ((s.emit (.delay s.cfg.tRstHoldMs)).goto .b3RstHi)

/-- `B3_RST_HI` (R124). -/
def microB3RstHi (s : State) : Micro := .go ((s.driveRst .high).goto .b3Settle)

/-- `B3_SETTLE` (R124). -/
def microB3Settle (s : State) : Micro := .go ((s.emit (.delay s.cfg.tRstSettleMs)).goto .b4Cs)

/-- `B4_CS`, chip select (R125). -/
def microB4Cs (s : State) : Micro := .go ((s.driveCs .asserted).goto .b5Cmd)

/-- `B5_CMD`, enter command mode (R126). -/
def microB5Cmd (s : State) : Micro := .go { (s.enterMode .command) with bpIdx := 0, seq := .b5Prog }

/-- The next byte of the boot program is started and the index moves on; `seq` stays `B5_PROG` (R127). -/
def startBootByte (b : Byte) (s : State) : Micro :=
  match s.cfg.transport with
  | .serial => (xferStart b s).andThen fun t => .go { t with bpIdx := t.bpIdx + 1 }
  | .batched =>
    (txBegin s).andThen fun t =>
      (txWrite ctrlCmd t).andThen fun t =>
        (txWrite b t).andThen fun t =>
          (txEndStart t).andThen fun t => .go { t with bpIdx := t.bpIdx + 1 }

/-- The wait of `B5_PROG`: `await not spi_busy` or `await not tx_busy` (R127). -/
def bootBusFree (s : State) : Bool :=
  match s.cfg.transport with
  | .serial => !s.spiBusy
  | .batched => !s.txBusy

/-- `B5_PROG`, stream the boot program (R127). `bp_idx < L` exactly when BOOTROM has a byte there. -/
def microB5Prog (s : State) : Micro :=
  await (bootBusFree s) <|
    match bootRom s.cfg s.bpIdx with
    | some b => startBootByte b s
    | none => .go (s.goto .b6Data)

/-- `B6_DATA`, enter data mode and stay there (R128). -/
def microB6Data (s : State) : Micro := .go ((s.enterMode .data).goto .b7Pwr)

/-- `B7_PWR`, power saving; BOOT completes and the ghost pointer is set (R129, R46). -/
def microB7Pwr (s : State) : Micro :=
  .go { s with
    pwrGated := s.cfg.unusedDomains
    trace := s.trace ++ [.pwrGate s.cfg.unusedDomains]
    disp := s.disp.afterBoot
    seq := .ready
    phase := .running }

end Sys2Proof.Machine
end

