-- ==== Sys2Proof/Machine/Frame.lean ====
section
/-! DEFINITION. The Frame Transfer Engine (43_frame_transfer.md): PAINT and the micro-states P_* (SERIAL) and Q_*
(BATCHED). -/

namespace Sys2Proof.Machine

/-- The first micro-state of a PAINT (R140). -/
def paintStart (t : Transport) : MicroState :=
  match t with
  | .serial => .pFetch
  | .batched => .qOpen

/-- PAINT: accepted only when `seq = READY`; refused when FB holds fewer than `N` bytes (R140, R72, R175; log 15). -/
def execPaint (clear : Bool) (s : State) : Out :=
  acceptReady s <|
    if s.fbLen < s.cfg.frameLen then .refused .fbTooShort
    else .next { s with clr := clear, ftIdx := 0, seq := paintStart s.cfg.transport }

/-- PAINT completes: READY, and the ghost update (R147, R46). -/
def finishPaint (s : State) : State := { s with disp := s.dispAfterPaint, seq := .ready }

/-- `P_FETCH`, not guarded by `spi_busy`: this is the overlap (R143, R66). -/
def microPFetch (s : State) : Micro := nextPixel s fun v t => .go { t with lat := v, seq := .pSend }

/-- `P_SEND` (R143). -/
def microPSend (s : State) : Micro :=
  await (!s.spiBusy) <|
    (xferStart s.lat s).andThen fun t =>
      .go { t with ftIdx := t.ftIdx + 1, seq := if t.ftIdx + 1 < t.cfg.frameLen then .pFetch else .pDrain }

/-- `P_DRAIN` (R143). -/
def microPDrain (s : State) : Micro := await (!s.spiBusy) (.go (finishPaint s))

/-- `Q_OPEN` (R145). -/
def microQOpen (s : State) : Micro :=
  await (!s.txBusy) <|
    (txBegin s).andThen fun t =>
      (txWrite ctrlData t).andThen fun t => .go { t with ckIdx := 0, seq := .qFill }

/-- `Q_FILL` (R145). -/
def microQFill (s : State) : Micro :=
  if s.ckIdx < s.cfg.chunkSize then
    nextPixel s fun v t =>
      (txWrite v t).andThen fun t => .go { t with ftIdx := t.ftIdx + 1, ckIdx := t.ckIdx + 1 }
  else .go (s.goto .qClose)

/-- `Q_CLOSE` (R145): TXEND has a wait inside it (R102), so the micro-state takes two turns of the block, the first
with the batch open, the second once it is flushed. DEDUCED (log 12). -/
def microQClose (s : State) : Micro :=
  if s.txOpen then txEndStart s
  else await (!s.txBusy) (.go (if s.ftIdx < s.cfg.frameLen then s.goto .qOpen else finishPaint s))

end Sys2Proof.Machine
end

