-- ==== Sys2Proof/Machine/Power.lean ====
section
/-! DEFINITION. The Power & Indicator Controller (44_power_indicator.md): IDLE, SETIND, EXITHALT and the micro-states X_*.
Its `safeMode()` and `bootPowerSaving()` are steps of BOOT (R165). -/

namespace Sys2Proof.Machine

/-- IDLE (R155). -/
def execIdle (s : State) : Out := acceptReady s (.next (enterSleep s))

/-- SETIND of a channel that exists (R160). -/
def setIndicator (ch : Nat) (v : Byte) (s : State) : State :=
  { s with
    ind := s.ind.set ch (indValue s.cfg v)
    trace := s.trace ++ [.ind ch (indValue s.cfg v)]
    seq := .ready }

/-- SETIND: a channel that does not exist makes the word reserved (R160, R80). -/
def execSetind (ch : BitVec 4) (v : Byte) (s : State) : Out :=
  if ch.toNat < s.cfg.nChannels then acceptReady s (.next (setIndicator ch.toNat v s))
  else .refused (.reservedWord .channel)

/-- EXITHALT: accepted whenever the block is ready (R162). `phase` does not change here: from W_BOOT it stays `BOOT`
until `H_LOADER` (R31). -/
def execExithalt (s : State) : Out :=
  if s.seq = .ready ∨ s.seq = .wBoot then .next (s.goto .xIrq) else .refused .notReady

/-- `X_IRQ` (R163). -/
def microXIrq (s : State) : Micro := .go (({ s with irqEn := false }.emit .irqOff).goto .xLink)

/-- `X_LINK` (R163). -/
def microXLink (s : State) : Micro := .go (({ s with hostlinkEn := false }.emit .hostLinkOff).goto .xHandoff)

/-- `X_HANDOFF` (R163). -/
def microXHandoff (s : State) : Micro := .go (enterLoaderHalt s)

end Sys2Proof.Machine
end

