-- ==== Sys2Proof/Machine/Protocol.lean ====
section
/-! DEFINITION. The Display Controller Protocol (41_display_protocol.md): ENTERCMD, ENTERDATA, SENDCMD, the five mode
operations, and the micro-states C_*. -/

namespace Sys2Proof.Machine

/-- ENTERCMD (R106). -/
def execEntercmd (s : State) : Out := acceptReady s (.next ((s.enterMode .command).goto .ready))

/-- ENTERDATA (R108). -/
def execEnterdata (s : State) : Out := acceptReady s (.next ((s.enterMode .data).goto .ready))

/-- `lat <- c; seq <- C_ENTER` (R109, R110), with what the command is for the ghost (log 18). -/
def startCommand (s : State) (c : Byte) (src : CmdSource) : State :=
  { s with lat := c, cmdSrc := src, seq := .cEnter }

/-- SENDCMD (R109). -/
def execSendcmd (k : Byte) (s : State) : Out := acceptReady s (.next (startCommand s k .raw))

/-- A mode operation of flag `f`: `c = CmdRom(f, b)`, then as SENDCMD of `c` (R110). -/
def startModeOp (f : DispFlag) (b : Bool) (s : State) : Out :=
  acceptReady s (.next (startCommand s (cmdRom s.cfg f b) (.flag f b)))

/-- SETPWR (R111). -/
def execSetpwr (b : Bool) (s : State) : Out := startModeOp .pwr b s

/-- SETINV (R112). -/
def execSetinv (b : Bool) (s : State) : Out := startModeOp .inv b s

/-- SETALLON (R113). -/
def execSetallon (b : Bool) (s : State) : Out := startModeOp .allon b s

/-- SETFLIPH (R114). -/
def execSetfliph (b : Bool) (s : State) : Out := startModeOp .fliph b s

/-- SETFLIPV (R115). -/
def execSetflipv (b : Bool) (s : State) : Out := startModeOp .flipv b s

/-- `C_ENTER` (R109). -/
def microCEnter (s : State) : Micro :=
  match s.cfg.transport with
  | .serial => .go ((s.enterMode .command).goto .cSend)
  | .batched =>
    (txBegin (s.enterMode .command)).andThen fun t =>
      (txWrite ctrlCmd t).andThen fun t =>
        (txWrite t.lat t).andThen fun t => .go (t.goto .cSend)

/-- `C_SEND` (R109). -/
def microCSend (s : State) : Micro :=
  match s.cfg.transport with
  | .serial => (xferStart s.lat s).andThen fun t => .go (t.goto .cRestore)
  | .batched => (txEndStart s).andThen fun t => .go (t.goto .cRestore)

/-- The end of `C_RESTORE`: data mode, READY, and the ghost update of the completed operation (R109, R46). -/
def finishCommand (s : State) : State :=
  { (s.enterMode .data) with disp := s.disp.afterCommand s.cmdSrc, seq := .ready }

/-- `C_RESTORE` (R109). -/
def microCRestore (s : State) : Micro :=
  match s.cfg.transport with
  | .serial => await (!s.spiBusy) (.go (finishCommand s))
  | .batched => await (!s.txBusy) (.go (finishCommand s))

end Sys2Proof.Machine
end

