-- ==== Sys2Proof/Machine/Micro.lean ====
section
/-! DEFINITION. The block's micro-step: one rule for each micro-state (R31, R32). -/

namespace Sys2Proof.Machine

/-- The block's next micro-step. In a ready state no operation is in progress; in `I_SLEEP` "the block takes no step of
its own" (R155); `H_SAFE` and `H_LOADER` have no step (R174). -/
def micro (s : State) : Micro :=
  match s.seq with
  | .wBoot => .wait
  | .b1Pins => microB1Pins s
  | .b1Safe => microB1Safe s
  | .b2Bus => microB2Bus s
  | .b3RstLo => microB3RstLo s
  | .b3Hold => microB3Hold s
  | .b3RstHi => microB3RstHi s
  | .b3Settle => microB3Settle s
  | .b4Cs => microB4Cs s
  | .b5Cmd => microB5Cmd s
  | .b5Prog => microB5Prog s
  | .b6Data => microB6Data s
  | .b7Pwr => microB7Pwr s
  | .ready => .wait
  | .cEnter => microCEnter s
  | .cSend => microCSend s
  | .cRestore => microCRestore s
  | .pFetch => microPFetch s
  | .pSend => microPSend s
  | .pDrain => microPDrain s
  | .qOpen => microQOpen s
  | .qFill => microQFill s
  | .qClose => microQClose s
  | .iSleep => .wait
  | .xIrq => microXIrq s
  | .xLink => microXLink s
  | .xHandoff => microXHandoff s
  | .hSafe => .wait
  | .hLoader => .wait

/-- A turn of the block: its next micro-step, or a hold (log 9, 10). -/
def microStep (s : State) : Out := (micro s).turn s

end Sys2Proof.Machine
end

