-- ==== Sys2Proof/Machine/Moves.lean ====
section
/-! DEFINITION. The moves of the agents outside the block (10_state.md R20 to R28), and how one turn of the machine is
taken. `run` stands for the meanings of the operations, `exec` of Machine/Dispatch.lean, given by Machine/Step.lean. -/

namespace Sys2Proof.Machine

/-- A host write of FB is refused while a PAINT is in progress (R71, R175), and outside the buffer (log 16). -/
def hostFbWrite (i : Nat) (v : Byte) (s : State) : Out :=
  if s.painting then .refused .fbBusy
  else if i < s.fbLen then .next { s with fb := s.fb.write i v }
  else .refused .fbOutOfRange

/-- The host supplies a new buffer, of any length; refused while a PAINT is in progress (R51, R71, R72; log 16). -/
def hostFbSupply (bs : List Byte) (s : State) : Out :=
  if s.painting then .refused .fbBusy
  else .next { s with fb := Memory.ofBytes bs, fbLen := bs.length }

/-- The platform sets the enables "before EXITHALT"; afterwards they are the block's (R40; log 17). -/
def platformSet (irqEn hostlinkEn : Bool) (s : State) : Out :=
  if s.exiting then .refused .platformAfterExit
  else .next { s with irqEn := irqEn, hostlinkEn := hostlinkEn }

/-- Reset: "nothing survives a reset except the constant tables" (R47, R49). The configuration and the moves still to come
are no state of the block and stay (log 24). -/
def resetMove (p : Platform) (s : State) : State := { State.resetWith s.cfg p with sched := s.sched }

/-- The host presents a word: a reserved word is refused, any other is given to its meaning (R80, R81, R175). -/
def presentWord (run : Instr → State → Out) (w : OpWord) (s : State) : Out :=
  match decodeFor s.cfg w with
  | .ok i => run i s
  | .reserved why => .refused (.reservedWord why)

/-- One move. -/
def takeMove (run : Instr → State → Out) (m : Move) (s : State) : Out :=
  match m with
  | .block => microStep s
  | .present w => presentWord run w s
  | .fbWrite i v => hostFbWrite i v s
  | .fbSupply bs => hostFbSupply bs s
  | .serialDone => .next (serialDone s)
  | .batchDone => .next (batchDone s)
  | .irq => .next (wake s)
  | .button held => .next { s with btnConfirm := held }
  | .platform irqEn hostlinkEn => platformSet irqEn hostlinkEn s
  | .foreignDrive => .refused .foreignDriver
  | .reset p => .next (resetMove p s)

/-- One turn of the machine: the first move of `sched` is taken off and made; with none left only the block moves (log
8). -/
def takeTurn (run : Instr → State → Out) (s : State) : Out :=
  match s.sched with
  | [] => microStep s
  | m :: rest => takeMove run m { s with sched := rest }

/-- `s` made ready for the operation of word `w`: in `W_BOOT` for BOOT, in either ready state for EXITHALT, in `READY` for
the others. It stands for a machine that has been brought there; no step does this (log 11). -/
def State.readyFor (s : State) (w : OpWord) : State :=
  match decode w with
  | .ok .boot => if s.seq = .wBoot then s else { s with seq := .wBoot, phase := .boot }
  | .ok .exithalt => if s.isReady then s else { s with seq := .wBoot, phase := .boot }
  | .ok _ => if s.seq = .ready then s else { s with seq := .ready, phase := .running }
  | .reserved _ => s

end Sys2Proof.Machine
end

