-- ==== Sys2Proof/Machine/Dispatch.lean ====
section
/-! DEFINITION. One arm for each operation. -/

namespace Sys2Proof.Machine

def exec (i : Instr) (s : State) : Host.Outcome State Fault Refusal :=
  match i with
  | .boot => Sys2Proof.Machine.execBoot s
  | .paint clear => Sys2Proof.Machine.execPaint clear s
  | .setpwr b => Sys2Proof.Machine.execSetpwr b s
  | .setinv b => Sys2Proof.Machine.execSetinv b s
  | .setallon b => Sys2Proof.Machine.execSetallon b s
  | .setfliph b => Sys2Proof.Machine.execSetfliph b s
  | .setflipv b => Sys2Proof.Machine.execSetflipv b s
  | .idle => Sys2Proof.Machine.execIdle s
  | .setind ch v => Sys2Proof.Machine.execSetind ch v s
  | .exithalt => Sys2Proof.Machine.execExithalt s
  | .sendcmd k => Sys2Proof.Machine.execSendcmd k s
  | .entercmd => Sys2Proof.Machine.execEntercmd s
  | .enterdata => Sys2Proof.Machine.execEnterdata s

end Sys2Proof.Machine
end

