-- ==== Sys2Proof/Machine/Step.lean ====
section
/-! DEFINITION. The step, and the host's entry point that stores an operation word where the next step takes it. -/

namespace Sys2Proof.Machine

/-- One step of the machine: one turn of one agent (R20, R31, R32; log 8, 11). -/
def step (s : State) : Host.Outcome State Fault Refusal := takeTurn exec s

/-- `s` with the host about to present the given word, and the block ready for it (host entry point; log 11). -/
def State.withFetchWord (s : State) (nbits w : Nat) : State :=
  { s.readyFor (tableWord nbits w) with sched := .present (tableWord nbits w) :: s.sched }

end Sys2Proof.Machine
end

