-- ==== Sys2Proof/Safety.lean ====
section
/-! DEFINITION. The terms claims about the machine use: runs, schedules, the stuck and terminal states (R173, R174), the
display controller's view of a trace (95_test_vectors.md 1.2), the traces and end states the spec gives each operation
(R109, R130, R131, R146, R147), and the invariant of the machine. -/

namespace Sys2Proof.Machine

/-! ### Runs and schedules -/

/-- `k` steps, stopping at the first refusal. -/
def run : Nat → State → Out
  | 0, s => .next s
  | k + 1, s =>
    match step s with
    | .next t => run k t
    | .fault r => .fault r
    | .refused r => .refused r

/-- A move of the block, the bus environment or the interrupt environment: one that may come at any moment of an operation
(R20, R177). -/
def Move.quiet : Move → Bool
  | .block | .serialDone | .batchDone | .irq => true
  | _ => false

/-- A schedule of quiet moves only: the host is waiting for the operation (R20), the bus and the interrupts do as they
like. -/
def State.calm (s : State) : Bool := s.sched.all Move.quiet

/-- `n` turns of the block, each followed by the completion of what it started: a bus that never stalls. -/
def promptTurns (n : Nat) : List Move :=
  match n with
  | 0 => []
  | n + 1 => .block :: .serialDone :: .batchDone :: promptTurns n

/-- The step answers a next state. -/
def completes (o : Out) : Bool :=
  match o with
  | .next _ => true
  | .fault _ => false
  | .refused _ => false

/-- The step answers a refusal. -/
def refuses (o : Out) : Bool :=
  match o with
  | .next _ => false
  | .fault _ => false
  | .refused _ => true

/-- A waiting micro-state whose releasing step has not been taken (R173). -/
def State.waiting (s : State) : Bool :=
  match s.seq, s.cfg.transport with
  | .b5Prog, .serial | .cRestore, .serial | .pSend, .serial | .pDrain, .serial => s.spiBusy
  | .b5Prog, .batched | .cRestore, .batched | .qOpen, .batched => s.txBusy
  | .qClose, .batched => s.txBusy && !s.txOpen
  | .iSleep, _ => true
  | _, _ => false

/-! ### What the display controller received (95_test_vectors.md 1.2) -/

/-- `wire(trace)`: the bytes with the mode each was read in; `m` is the level of the DC line before the trace. -/
def wireFrom (m : LinkMode) : List Event → List (LinkMode × Byte)
  | [] => []
  | .pin (.dc m') :: es => wireFrom m' es
  | .serial b :: es => (m, b) :: wireFrom m es
  | .batch _ (c :: bs) :: es =>
    bs.map (fun b => (if c = ctrlCmd then LinkMode.command else LinkMode.data, b)) ++ wireFrom m es
  | _ :: es => wireFrom m es

/-- The mode the display controller reads a frame's bytes in: on SERIAL the mode in force, on BATCHED always data (R105,
R107, R141). -/
def State.frameMode (s : State) : LinkMode :=
  match s.cfg.transport, s.mode with
  | .serial, .holds m => m
  | _, _ => .data

/-- The indices a trace reads from FB, in order. -/
def readIndices : List Event → List Nat
  | [] => []
  | .fbRead i _ :: es => i :: readIndices es
  | _ :: es => readIndices es

/-! ### The traces of the operations -/

/-- What SENDCMD of `c`, or a mode operation with byte `c`, appends (R109, R110). -/
def commandEvents (g : Cfg) (c : Byte) : List Event :=
  match g.transport with
  | .serial => [.pin (.dc .command), .serial c, .pin (.dc .data)]
  | .batched => [.batch g.periphAddr (cmdBatch c)]

/-- The events of the boot program's bytes, between command mode and data mode (R127, R130). -/
def bootProgEvents (g : Cfg) : List Event :=
  match g.transport with
  | .serial => [.pin (.dc .command)] ++ g.bootProgram.map Event.serial ++ [.pin (.dc .data)]
  | .batched => g.bootProgram.map fun b => .batch g.periphAddr (cmdBatch b)

/-- The complete trace of BOOT with the button not held (R130). -/
def bootEvents (g : Cfg) : List Event :=
  [.portsInit, .button false, .busInit g.transport, .pin (.rst .low), .delay g.tRstHoldMs, .pin (.rst .high),
    .delay g.tRstSettleMs, .pin (.cs .asserted)] ++ bootProgEvents g ++ [.pwrGate g.unusedDomains]

/-- The complete trace of BOOT with the button held (R130). -/
def safeModeEvents (g : Cfg) : List Event :=
  [.portsInit, .button true, .ind g.safeCh (indOn g)]

/-- The read of frame byte `i`, if there is one (R143, R144). -/
def frameRead (clr : Bool) (fb : Memory) (i : Nat) : List Event := if clr then [] else [.fbRead i (fb.read i)]

/-- The events of frame byte `i` on SERIAL and the read of the next byte; `early` says whether the overlap was taken there
(R66, R146). -/
def serialSlot (clr : Bool) (fb : Memory) (n : Nat) (early : Nat → Bool) (i : Nat) : List Event :=
  if i + 1 < n then
    if early i then frameRead clr fb (i + 1) ++ [.serial (frameByte clr fb i)]
    else .serial (frameByte clr fb i) :: frameRead clr fb (i + 1)
  else [.serial (frameByte clr fb i)]

/-- A trace of PAINT on SERIAL: one for each choice of the overlaps taken (R146). -/
def serialFrameEvents (clr : Bool) (fb : Memory) (n : Nat) (early : Nat → Bool) : List Event :=
  frameRead clr fb 0 ++ (List.range n).flatMap (serialSlot clr fb n early)

/-- The events of chunk `c` on BATCHED: its reads, then its batch (R146). -/
def chunkEvents (addr : Nat) (clr : Bool) (fb : Memory) (size c : Nat) : List Event :=
  (List.range size).flatMap (fun k => frameRead clr fb (c * size + k)) ++
    [.batch addr (dataBatch (frameBytes clr fb (c * size) size))]

/-- The one trace of PAINT on BATCHED (R146). -/
def batchedFrameEvents (addr : Nat) (clr : Bool) (fb : Memory) (n size : Nat) : List Event :=
  (List.range (n / size)).flatMap (chunkEvents addr clr fb size)

/-! ### The end states of the operations. `sch` is what is left of the schedule. -/

/-- After a completed BOOT (R131). -/
def bootDone (s : State) (sch : List Move) : State :=
  { s with
    seq := .ready
    phase := .running
    bpIdx := s.cfg.bootLen
    busReady := true
    mode := .holds .data
    spiDr :=
      match s.cfg.transport with
      | .serial => s.cfg.bootProgram.getLast?.getD s.spiDr
      | .batched => s.spiDr
    rst := .driven .high
    cs := .driven .asserted
    dc :=
      match s.cfg.transport with
      | .serial => .driven .data
      | .batched => .driven s.cfg.pinInit.dc
    ind := List.replicate s.cfg.nChannels (indOff s.cfg)
    pwrGated := s.cfg.unusedDomains
    trace := s.trace ++ bootEvents s.cfg
    disp := s.disp.afterBoot
    sched := sch }

/-- After a BOOT with the button held (R131). -/
def safeModeDone (s : State) (sch : List Move) : State :=
  { s with
    seq := .hSafe
    phase := .safeHalt
    rst := .driven s.cfg.pinInit.rst
    cs := .driven s.cfg.pinInit.cs
    dc := .driven s.cfg.pinInit.dc
    ind := (List.replicate s.cfg.nChannels (indOff s.cfg)).set s.cfg.safeCh (indOn s.cfg)
    trace := s.trace ++ safeModeEvents s.cfg
    sched := sch }

/-- After a completed SENDCMD or mode operation with byte `c` (R109, R110). -/
def commandDone (s : State) (c : Byte) (src : CmdSource) (sch : List Move) : State :=
  { s with
    lat := c
    cmdSrc := src
    mode := .holds .data
    spiDr :=
      match s.cfg.transport with
      | .serial => c
      | .batched => s.spiDr
    dc :=
      match s.cfg.transport with
      | .serial => .driven .data
      | .batched => s.dc
    trace := s.trace ++ commandEvents s.cfg c
    disp := s.disp.afterCommand src
    sched := sch }

/-- After a completed PAINT on SERIAL (R147). -/
def serialPaintDone (s : State) (clear : Bool) (early : Nat → Bool) (sch : List Move) : State :=
  { s with
    clr := clear
    ftIdx := s.cfg.frameLen
    lat := frameByte clear s.fb (s.cfg.frameLen - 1)
    spiDr := frameByte clear s.fb (s.cfg.frameLen - 1)
    trace := s.trace ++ serialFrameEvents clear s.fb s.cfg.frameLen early
    disp := ({ s with clr := clear }).dispAfterPaint
    sched := sch }

/-- After a completed PAINT on BATCHED (R147). -/
def batchedPaintDone (s : State) (clear : Bool) (sch : List Move) : State :=
  { s with
    clr := clear
    ftIdx := s.cfg.frameLen
    ckIdx := s.cfg.chunkSize
    trace := s.trace ++ batchedFrameEvents s.cfg.periphAddr clear s.fb s.cfg.frameLen s.cfg.chunkSize
    disp := ({ s with clr := clear }).dispAfterPaint
    sched := sch }

/-- After an EXITHALT (R163, R164). -/
def exitDone (s : State) (sch : List Move) : State :=
  { s with
    seq := .hLoader
    phase := .loaderHalt
    irqEn := false
    hostlinkEn := false
    trace := s.trace ++ [.irqOff, .hostLinkOff, .handoff]
    sched := sch }

/-- The turns of the block each operation needs on a bus that never stalls (R127, R109, R143, R145, R163). -/
def turnsNeeded (g : Cfg) : Instr → Nat
  | .boot => g.bootLen + 12
  | .paint _ =>
    match g.transport with
    | .serial => 2 * g.frameLen + 1
    | .batched => (g.chunkSize + 4) * (g.frameLen / g.chunkSize)
  | .setpwr _ | .setinv _ | .setallon _ | .setfliph _ | .setflipv _ | .sendcmd _ => 3
  | .exithalt => 3
  | .idle | .setind _ _ | .entercmd | .enterdata => 0

/-! ### The invariant -/

/-- The `phase` each micro-state implies (R31); an X_* state started from W_BOOT keeps `BOOT`. -/
def phaseOk (s : State) : Bool :=
  match s.seq with
  | .iSleep => s.phase = .idle
  | .hSafe => s.phase = .safeHalt
  | .hLoader => s.phase = .loaderHalt
  | .xIrq | .xLink | .xHandoff => s.phase = (if s.busReady then .running else .boot)
  | q => s.phase = (if q.inBoot then .boot else .running)

/-- Nothing is started on either transport. -/
def busQuiet (s : State) : Bool := !s.spiBusy && !s.txOpen && !s.txBusy && s.txBuf = []

/-- A byte `b` may be in the shifter, or its command batch on the way; nothing else is started (R65, R84). -/
def mayCarryCommand (s : State) (b : Option Byte) : Bool :=
  match s.cfg.transport with
  | .serial => !s.txOpen && !s.txBusy && s.txBuf = [] && (!s.spiBusy || some s.spiDr = b)
  | .batched => !s.spiBusy && !s.txOpen && (if s.txBusy then some s.txBuf = b.map cmdBatch else s.txBuf = [])

/-- Frame byte `i - 1` may be in the shifter (R65). -/
def mayCarryPixel (s : State) (i : Nat) : Bool :=
  !s.txOpen && !s.txBusy && s.txBuf = [] &&
    (!s.spiBusy || (decide (1 ≤ i) && s.spiDr = frameByte s.clr s.fb (i - 1)))

/-- The batch of the chunk that ends before `ft_idx`, as far as it is filled (R145). -/
def chunkSoFar (s : State) : List Byte := dataBatch (frameBytes s.clr s.fb (s.ftIdx - s.ckIdx) s.ckIdx)

/-- The bus registers and the working registers at each micro-state (R33 to R36). -/
def busOk (s : State) : Bool :=
  match s.seq with
  | .wBoot | .b1Pins | .b1Safe | .b2Bus | .hSafe => !s.busReady && busQuiet s
  | .b3RstLo | .b3Hold | .b3RstHi | .b3Settle | .b4Cs | .b5Cmd | .b6Data | .b7Pwr | .ready | .iSleep | .cEnter =>
    s.busReady && busQuiet s
  | .xIrq | .xLink | .xHandoff | .hLoader => busQuiet s
  | .b5Prog =>
    s.busReady && decide (s.bpIdx ≤ s.cfg.bootLen) &&
      mayCarryCommand s (if s.bpIdx = 0 then none else bootRom s.cfg (s.bpIdx - 1))
  | .cSend =>
    s.busReady &&
      (match s.cfg.transport with
       | .serial => busQuiet s
       | .batched => !s.spiBusy && s.txOpen && !s.txBusy && s.txBuf = cmdBatch s.lat)
  | .cRestore => s.busReady && mayCarryCommand s (some s.lat)
  | .pFetch =>
    s.busReady && s.cfg.transport = .serial && decide (s.cfg.frameLen ≤ s.fbLen) &&
      decide (s.ftIdx < s.cfg.frameLen) && mayCarryPixel s s.ftIdx
  | .pSend =>
    s.busReady && s.cfg.transport = .serial && decide (s.cfg.frameLen ≤ s.fbLen) &&
      decide (s.ftIdx < s.cfg.frameLen) && mayCarryPixel s s.ftIdx && s.lat = frameByte s.clr s.fb s.ftIdx
  | .pDrain =>
    s.busReady && s.cfg.transport = .serial && decide (s.cfg.frameLen ≤ s.fbLen) &&
      decide (s.ftIdx = s.cfg.frameLen) && mayCarryPixel s s.ftIdx && s.lat = frameByte s.clr s.fb (s.ftIdx - 1) &&
      s.spiDr = s.lat
  | .qOpen =>
    s.busReady && s.cfg.transport = .batched && decide (s.cfg.frameLen ≤ s.fbLen) &&
      decide (s.ftIdx < s.cfg.frameLen) && decide (s.ftIdx % s.cfg.chunkSize = 0) && busQuiet s
  | .qFill =>
    s.busReady && s.cfg.transport = .batched && decide (s.cfg.frameLen ≤ s.fbLen) &&
      decide (s.ckIdx ≤ s.cfg.chunkSize) && decide (s.ckIdx ≤ s.ftIdx) &&
      decide (s.ftIdx - s.ckIdx < s.cfg.frameLen) && decide ((s.ftIdx - s.ckIdx) % s.cfg.chunkSize = 0) &&
      !s.spiBusy && s.txOpen && !s.txBusy && s.txBuf = chunkSoFar s
  | .qClose =>
    s.busReady && s.cfg.transport = .batched && decide (s.cfg.frameLen ≤ s.fbLen) &&
      decide (s.ckIdx = s.cfg.chunkSize) && decide (s.ckIdx ≤ s.ftIdx) &&
      decide (s.ftIdx - s.ckIdx < s.cfg.frameLen) && decide ((s.ftIdx - s.ckIdx) % s.cfg.chunkSize = 0) &&
      !s.spiBusy && !(s.txOpen && s.txBusy) &&
      (if s.txOpen || s.txBusy then s.txBuf = chunkSoFar s else s.txBuf = [])

/-- The lines and the mode in an operating machine, in mode `m`, or in either mode where none is given (R34, R37). -/
def linesOperating (s : State) (m : Option LinkMode) : Bool :=
  s.rst = .driven .high && s.cs = .driven .asserted &&
    (match s.mode with
     | .noValue => false
     | .holds m' =>
       (match m with
        | none => true
        | some m'' => m' = m'') &&
         (match s.cfg.transport with
          | .serial => s.dc = .driven m'
          | .batched => s.dc = .driven s.cfg.pinInit.dc))

/-- The lines and the mode before boot step 1 (R37). -/
def linesUndriven (s : State) : Bool := s.rst = .undriven && s.cs = .undriven && s.dc = .undriven && s.mode = .noValue

/-- The lines and the mode in boot steps 1a to 4, with the given RST and CS (R121 to R125). -/
def linesBooting (s : State) (r : RstLevel) (c : CsLevel) : Bool :=
  s.rst = .driven r && s.cs = .driven c && s.dc = .driven s.cfg.pinInit.dc && s.mode = .noValue

/-- The line latches and the mode at each micro-state (R34, R37, R105). -/
def linesOk (s : State) : Bool :=
  match s.seq with
  | .wBoot | .b1Pins => linesUndriven s
  | .b1Safe | .b2Bus | .b3RstLo | .hSafe => linesBooting s s.cfg.pinInit.rst s.cfg.pinInit.cs
  | .b3Hold | .b3RstHi => linesBooting s .low s.cfg.pinInit.cs
  | .b3Settle | .b4Cs => linesBooting s .high s.cfg.pinInit.cs
  | .b5Cmd => linesBooting s .high .asserted
  | .b5Prog | .b6Data | .cSend | .cRestore => linesOperating s (some .command)
  | .b7Pwr => linesOperating s (some .data)
  | .xIrq | .xLink | .xHandoff | .hLoader => if s.busReady then linesOperating s none else linesUndriven s
  | _ => linesOperating s none

/-- A value of the built indicator variant (R38). -/
def indKindOk (g : Cfg) (v : IndVal) : Bool :=
  match g.indicator, v with
  | .pwm, .pwm _ => true
  | .onoff, .onoff _ => true
  | _, _ => false

/-- The indicator file and the power gates (R38, R39). -/
def outputsOk (s : State) : Bool :=
  s.ind.length = s.cfg.nChannels && s.ind.all (indKindOk s.cfg) &&
    s.pwrGated = (if s.booted then s.cfg.unusedDomains else [])

/-- The ghost state: `N` entries; when invalid nothing has a value; while valid, the pointer is at the origin from the end
of BOOT on, and has no value before (R45, R46). -/
def dispOk (s : State) : Bool :=
  s.disp.ram.length = s.cfg.frameLen &&
    (if s.disp.valid then s.disp.ptr = (if s.booted then some 0 else none)
     else s.disp = (Disp.reset s.cfg.frameLen).invalidate)

/-- A SENDCMD or a mode operation is in progress: `seq` is `C_*` (R109). -/
def State.commanding (s : State) : Bool := s.seq = .cEnter || s.seq = .cSend || s.seq = .cRestore

/-- What an in-progress command is agrees with its byte (R110). -/
def cmdSrcOk (s : State) : Bool :=
  match s.cmdSrc with
  | .raw => true
  | .flag f b => !s.commanding || s.lat = cmdRom s.cfg f b

/-- The invariant of the machine: it holds at reset for every well-formed configuration, and every step keeps it. -/
def State.inv (s : State) : Bool :=
  s.cfg.wf && s.fb.wf && phaseOk s && busOk s && linesOk s && outputsOk s && dispOk s && cmdSrcOk s

/-- Data mode in every state that can become READY without a command of its own: the post-boot invariant of R105. -/
def dataReady (s : State) : Bool :=
  match s.seq with
  | .ready | .pFetch | .pSend | .pDrain | .qOpen | .qFill | .qClose | .iSleep => s.mode = .holds .data
  | _ => true

end Sys2Proof.Machine
end

