-- ==== Sys2Proof/Certificates/Slice0/Obligations.lean ====
section
/-! DEFINITION. The statements for the provers, in the order of OBLIGATIONS.json. Every statement quantifies over the
configuration (`s.cfg`), the platform's inputs, the frame buffer and the schedule, all of them fields of the state. -/

open Sys2Proof Sys2Proof.Machine

/-! ### Words (30_encoding.md) -/

/-- R76 to R79: the word of an operation decodes to it, for every operand. The encoding is the spec's own (D1). -/
def Obligations.DecodeOfEncodeIsTheOperation : Prop :=
  ∀ i : Instr, decode (encode i) = .ok i

/-- R77, D24: each operation has exactly one word. -/
def Obligations.EncodeOfDecodedIsTheWord : Prop :=
  ∀ (w : OpWord) (i : Instr), decode w = .ok i → encode i = w

/-- R81: a word decodes to an operation exactly when it selects the row of the opcode table that bears the operation's
mnemonic, `(w AND mask) = match`; and no word selects two rows. -/
def Obligations.DecoderAgreesWithOpcodeTable : Prop :=
  (∀ w : OpWord, (∃ i, decode w = .ok i) ↔ ∃ r ∈ opTable, r.selects w = true) ∧
  (∀ (w : OpWord) (i : Instr), decode w = .ok i → ∃ r ∈ opTable, r.selects w = true ∧ r.mnemonic = i.mnemonic) ∧
  (∀ (w : OpWord) (r q : OpRow), r ∈ opTable → q ∈ opTable → r.selects w = true → q.selects w = true → r = q)

/-- 95_test_vectors.md 3.1: every word of the vectors E1 to E29 decodes as the vector says, the reserved ones for the
reason it gives; E29 in a machine of three channels and in one of sixteen. -/
def Obligations.SpecWordsDecode : Prop :=
  (decode 0x1000#16 = .ok .boot ∧
    decode 0x2000#16 = .ok (.paint false) ∧ decode 0x2001#16 = .ok (.paint true) ∧
    decode 0x3000#16 = .ok (.setpwr false) ∧ decode 0x3001#16 = .ok (.setpwr true) ∧
    decode 0x4000#16 = .ok (.setinv false) ∧ decode 0x4001#16 = .ok (.setinv true) ∧
    decode 0x5000#16 = .ok (.setallon false) ∧ decode 0x5001#16 = .ok (.setallon true) ∧
    decode 0x6000#16 = .ok (.setfliph false) ∧ decode 0x6001#16 = .ok (.setfliph true) ∧
    decode 0x7000#16 = .ok (.setflipv false) ∧ decode 0x7001#16 = .ok (.setflipv true) ∧
    decode 0x8000#16 = .ok .idle ∧
    decode 0x9280#16 = .ok (.setind 2#4 0x80#8) ∧ decode 0x9000#16 = .ok (.setind 0#4 0x00#8) ∧
    decode 0x92FF#16 = .ok (.setind 2#4 0xFF#8) ∧
    decode 0xA000#16 = .ok .exithalt ∧
    decode 0xB0A7#16 = .ok (.sendcmd 0xA7#8) ∧ decode 0xB000#16 = .ok (.sendcmd 0x00#8) ∧
    decode 0xB0FF#16 = .ok (.sendcmd 0xFF#8) ∧
    decode 0xC000#16 = .ok .entercmd ∧ decode 0xD000#16 = .ok .enterdata) ∧
  (∀ w ∈ [0x0000#16, 0xFFFF#16, 0xE000#16, 0xF123#16], decode w = .reserved .opcode) ∧
  (∀ w ∈ [0x1100#16, 0x2100#16, 0x5F00#16, 0x7101#16, 0xD100#16, 0xB1A7#16], decode w = .reserved .sel) ∧
  (∀ w ∈ [0x1001#16, 0x2002#16, 0x2003#16, 0x20FF#16, 0x3003#16, 0x4080#16, 0x6002#16, 0x8001#16, 0xA0FF#16, 0xC001#16],
    decode w = .reserved .imm) ∧
  (∀ c : Cfg, c.nChannels = 3 →
    decodeFor c 0x92FF#16 = .ok (.setind 2#4 0xFF#8) ∧
    decodeFor c 0x9300#16 = .reserved .channel ∧ decodeFor c 0x9FFF#16 = .reserved .channel) ∧
  (∀ c : Cfg, c.nChannels = 16 →
    decodeFor c 0x9300#16 = .ok (.setind 3#4 0x00#8) ∧ decodeFor c 0x9FFF#16 = .ok (.setind 15#4 0xFF#8))

/-- R80, R175 (the spec's D14): in every state, a presented word is refused when its opcode is `0x0`, `0xE` or `0xF`, when
a must-be-zero field of its format is not zero, or when it is a SETIND of a channel that does not exist. -/
def Obligations.ReservedWordsAreRefused : Prop :=
  ∀ (s : State) (w : OpWord) (rest : List Move), s.sched = .present w :: rest →
    (opcodeOf w = 0x0#4 ∨ opcodeOf w = 0xE#4 ∨ opcodeOf w = 0xF#4 ∨
      (opcodeOf w ≠ 0x9#4 ∧ selOf w ≠ 0#4) ∨
      (opcodeOf w ∈ [0x1#4, 0x8#4, 0xA#4, 0xC#4, 0xD#4] ∧ immOf w ≠ 0#8) ∨
      (opcodeOf w ∈ [0x2#4, 0x3#4, 0x4#4, 0x5#4, 0x6#4, 0x7#4] ∧ (immOf w).toNat ≥ 2) ∨
      (opcodeOf w = 0x9#4 ∧ s.cfg.nChannels ≤ (selOf w).toNat)) →
    ∃ why, step s = .refused (.reservedWord why)

/-- R87, R88: the assembler text of an operation reads back as the operation, with or without a comment; a Boolean may be
spelled `true` or `false` instead of `1` or `0`; and each pseudo-operation reads as the one operation it stands for, which
is the one of R88's table. The layout of blanks is the model's (log 30). -/
def Obligations.AssemblerTextReadsBack : Prop :=
  (∀ i : Instr, assembleLine i.text = some i) ∧
  (∀ (i : Instr) (comment : List Char), assembleLine (i.text ++ [' ', ';'] ++ comment) = some i) ∧
  (∀ b : Bool,
    let spelled : List Char := if b then ['t', 'r', 'u', 'e'] else ['f', 'a', 'l', 's', 'e']
    assembleLine ("PAINT ".toList ++ spelled) = some (.paint b) ∧
    assembleLine ("SETPWR ".toList ++ spelled) = some (.setpwr b) ∧
    assembleLine ("SETINV ".toList ++ spelled) = some (.setinv b) ∧
    assembleLine ("SETALLON ".toList ++ spelled) = some (.setallon b) ∧
    assembleLine ("SETFLIPH ".toList ++ spelled) = some (.setfliph b) ∧
    assembleLine ("SETFLIPV ".toList ++ spelled) = some (.setflipv b) ∧
    assembleLine ("INVERT ".toList ++ spelled) = some (Pseudo.invert b).expand) ∧
  (assembleLine "DISPLAYOFF".toList = some Pseudo.displayoff.expand ∧ Pseudo.displayoff.expand = .setpwr false) ∧
  (assembleLine "DISPLAYON".toList = some Pseudo.displayon.expand ∧ Pseudo.displayon.expand = .setpwr true) ∧
  (assembleLine "CLEAR".toList = some Pseudo.clear.expand ∧ Pseudo.clear.expand = .paint true) ∧
  (assembleLine "DISPLAY".toList = some Pseudo.display.expand ∧ Pseudo.display.expand = .paint false) ∧
  (∀ b : Bool, assembleLine ("INVERT ".toList ++ boolText b) = some (Pseudo.invert b).expand ∧
    (Pseudo.invert b).expand = .setinv b)

/-! ### The step (R20, R21, R31) -/

/-- A presented word that decodes to an operation legal in the configuration is run: the step is `exec` of the operation
on the state with that move taken off the schedule. -/
def Obligations.StepRunsThePresentedOperation : Prop :=
  ∀ (s : State) (w : OpWord) (i : Instr) (rest : List Move),
    s.sched = .present w :: rest → decode w = .ok i → i.wf s.cfg = true →
    step s = exec i { s with sched := rest }

/-- R98, R103, R157 and R31: the other moves of a calm schedule. With no move left the block has the turn (log 8). -/
def Obligations.StepTakesOneAgentsTurn : Prop :=
  (∀ s : State, s.sched = [] → step s = microStep s) ∧
  (∀ (s : State) (rest : List Move), s.sched = .block :: rest → step s = microStep { s with sched := rest }) ∧
  (∀ (s : State) (rest : List Move), s.sched = .serialDone :: rest → s.spiBusy = true →
    step s = .next { s with spiBusy := false, trace := s.trace ++ [.serial s.spiDr], sched := rest }) ∧
  (∀ (s : State) (rest : List Move), s.sched = .batchDone :: rest → s.txBusy = true →
    step s = .next { s with
      txBusy := false, txBuf := [], trace := s.trace ++ [.batch s.cfg.periphAddr s.txBuf], sched := rest }) ∧
  (∀ (s : State) (rest : List Move), s.sched = .irq :: rest → s.seq = .iSleep → s.irqEn = true →
    step s = .next { s with seq := .ready, phase := .running, trace := s.trace ++ [.irq, .wake], sched := rest })

/-! ### Reset (R47 to R49, R190 to R193) -/

/-- R47 to R49: the values the spec states for reset, for every configuration and every platform input; and a reset, in any
state, leads to that state. That the moves still to come stay, and that the host's buffer is emptied, is the model's
(log 24). -/
def Obligations.ResetLeavesTheStatedValues : Prop :=
  (∀ (c : Cfg) (p : Platform),
    let s := State.resetWith c p
    s.cfg = c ∧ s.seq = .wBoot ∧ s.phase = .boot ∧ s.busReady = false ∧ s.spiBusy = false ∧ s.txOpen = false ∧
    s.txBusy = false ∧ s.txBuf = [] ∧ s.mode = .noValue ∧ s.rst = .undriven ∧ s.cs = .undriven ∧ s.dc = .undriven ∧
    s.pwrGated = [] ∧ s.trace = [] ∧ s.disp.valid = true ∧ s.disp.ptr = none ∧ s.disp.powered = none ∧
    s.disp.inverted = none ∧ s.disp.allon = none ∧ s.disp.fliph = none ∧ s.disp.flipv = none ∧
    s.disp.ram = List.replicate c.frameLen none ∧
    s.irqEn = p.irqEn ∧ s.hostlinkEn = p.hostlinkEn ∧ s.btnConfirm = p.btnConfirm) ∧
  (∀ (s : State) (p : Platform) (rest : List Move), s.sched = .reset p :: rest →
    step s = .next { State.resetWith s.cfg p with sched := rest })

/-- R191: after reset the block accepts BOOT and EXITHALT and no other word. -/
def Obligations.ResetAcceptsOnlyBootAndExithalt : Prop :=
  ∀ (c : Cfg) (p : Platform) (w : OpWord) (rest : List Move),
    (∃ t, step { State.resetWith c p with sched := .present w :: rest } = .next t) ↔ w = 0x1000#16 ∨ w = 0xA000#16

/-- R192: every operation other than BOOT and EXITHALT is refused while BOOT has not completed, also in the states an
EXITHALT before BOOT goes through. -/
def Obligations.OperationsBeforeBootAreRefused : Prop :=
  ∀ (s : State) (i : Instr), s.inv = true → s.booted = false → i ≠ .boot → i ≠ .exithalt → refuses (exec i s) = true

/-- R193, R133: a second BOOT is refused, in READY and everywhere else, and no step but a reset brings the block back to
`W_BOOT`, the one state that accepts it. -/
def Obligations.BootIsOneShot : Prop :=
  (∀ s : State, s.seq = .ready → exec .boot s = .refused .secondBoot) ∧
  (∀ s : State, s.seq ≠ .wBoot → refuses (exec .boot s) = true) ∧
  (∀ s t : State, step s = .next t → s.seq ≠ .wBoot → t.seq = .wBoot → ∃ p rest, s.sched = .reset p :: rest)

/-! ### BOOT (42_boot_sequencer.md) -/

/-- R120: BOOT is accepted in `W_BOOT` and sets `seq` to `B1_PINS`, nothing else; in any other state it is refused. -/
def Obligations.BootStarts : Prop :=
  encode .boot = 0x1000#16 ∧
  (∀ s : State, s.seq = .wBoot → exec .boot s = .next { s with seq := .b1Pins }) ∧
  (∀ s : State, s.seq ≠ .wBoot → refuses (exec .boot s) = true)

/-- R130, R131: whatever the bus environment does, if BOOT reaches READY then its trace is the one trace of R130 and its
end state is that of R131; nothing else has changed. -/
def Obligations.BootEndStateUnderEverySchedule : Prop :=
  ∀ (s s' t : State) (k : Nat), s.inv = true → s.calm = true → s.seq = .wBoot →
    exec .boot s = .next s' → run k s' = .next t → t.seq = .ready → t = bootDone s t.sched

/-- R122, R131: with the button held, BOOT stops in `H_SAFE` with one indicator lit, having touched neither the bus nor
the display; with it not held, it never does. -/
def Obligations.SafeModeEndState : Prop :=
  ∀ (s s' t : State) (k : Nat), s.inv = true → s.calm = true → s.seq = .wBoot →
    exec .boot s = .next s' → run k s' = .next t →
    (t.seq = .hSafe → s.btnConfirm = true ∧ t = safeModeDone s t.sched) ∧
    (s.btnConfirm = true → t.seq = .b1Pins ∨ t.seq = .b1Safe ∨ t.seq = .hSafe)

/-- R120, R127, R173: on a bus that never stalls, with the button not held, BOOT reaches READY in `L + 12` turns of the
block. -/
def Obligations.BootCompletesOnAPromptBus : Prop :=
  ∀ (s : State) (rest : List Move), s.inv = true → s.seq = .wBoot → s.btnConfirm = false →
    ∃ s' t, exec .boot { s with sched := promptTurns (turnsNeeded s.cfg .boot) ++ rest } = .next s' ∧
      run (3 * turnsNeeded s.cfg .boot) s' = .next t ∧ t.seq = .ready ∧ t.sched = rest

/-- R121 to R129, R126: the micro-steps of BOOT before and after the boot program, as written. -/
def Obligations.BootMicroStepsAsWritten : Prop :=
  (∀ s : State, s.seq = .b1Pins → microStep s = .next { s with
    rst := .driven s.cfg.pinInit.rst, cs := .driven s.cfg.pinInit.cs, dc := .driven s.cfg.pinInit.dc
    ind := List.replicate s.cfg.nChannels (indOff s.cfg), trace := s.trace ++ [.portsInit], seq := .b1Safe }) ∧
  (∀ s : State, s.seq = .b1Safe → s.btnConfirm = false →
    microStep s = .next { s with trace := s.trace ++ [.button false], seq := .b2Bus }) ∧
  (∀ s : State, s.seq = .b2Bus → s.cfg.transport = .serial → microStep s = .next { s with
    busReady := true, spiBusy := false, trace := s.trace ++ [.busInit .serial], seq := .b3RstLo }) ∧
  (∀ s : State, s.seq = .b2Bus → s.cfg.transport = .batched → microStep s = .next { s with
    busReady := true, txOpen := false, txBusy := false, txBuf := [], trace := s.trace ++ [.busInit .batched]
    seq := .b3RstLo }) ∧
  (∀ s : State, s.seq = .b3RstLo → microStep s = .next { s with
    rst := .driven .low, trace := s.trace ++ [.pin (.rst .low)], seq := .b3Hold }) ∧
  (∀ s : State, s.seq = .b3Hold →
    microStep s = .next { s with trace := s.trace ++ [.delay s.cfg.tRstHoldMs], seq := .b3RstHi }) ∧
  (∀ s : State, s.seq = .b3RstHi → microStep s = .next { s with
    rst := .driven .high, trace := s.trace ++ [.pin (.rst .high)], seq := .b3Settle }) ∧
  (∀ s : State, s.seq = .b3Settle →
    microStep s = .next { s with trace := s.trace ++ [.delay s.cfg.tRstSettleMs], seq := .b4Cs }) ∧
  (∀ s : State, s.seq = .b4Cs → microStep s = .next { s with
    cs := .driven .asserted, trace := s.trace ++ [.pin (.cs .asserted)], seq := .b5Cmd }) ∧
  (∀ s : State, s.seq = .b5Cmd → s.cfg.transport = .serial → microStep s = .next { s with
    dc := .driven .command, trace := s.trace ++ [.pin (.dc .command)], mode := .holds .command, bpIdx := 0
    seq := .b5Prog }) ∧
  (∀ s : State, s.seq = .b5Cmd → s.cfg.transport = .batched → microStep s = .next { s with
    mode := .holds .command, bpIdx := 0, seq := .b5Prog }) ∧
  (∀ s : State, s.seq = .b6Data → s.cfg.transport = .serial → microStep s = .next { s with
    dc := .driven .data, trace := s.trace ++ [.pin (.dc .data)], mode := .holds .data, seq := .b7Pwr }) ∧
  (∀ s : State, s.seq = .b6Data → s.cfg.transport = .batched → microStep s = .next { s with
    mode := .holds .data, seq := .b7Pwr }) ∧
  (∀ s : State, s.seq = .b7Pwr → microStep s = .next { s with
    pwrGated := s.cfg.unusedDomains, trace := s.trace ++ [.pwrGate s.cfg.unusedDomains], disp := s.disp.afterBoot
    seq := .ready, phase := .running })

/-! ### The Display Controller Protocol (41_display_protocol.md) -/

/-- R106, R107: ENTERCMD in `READY`, on each transport. The repeated event is the spec's D2. -/
def Obligations.EntercmdResult : Prop :=
  encode .entercmd = 0xC000#16 ∧
  (∀ s : State, s.seq = .ready → s.cfg.transport = .serial → exec .entercmd s = .next { s with
    dc := .driven .command, mode := .holds .command, trace := s.trace ++ [.pin (.dc .command)] }) ∧
  (∀ s : State, s.seq = .ready → s.cfg.transport = .batched →
    exec .entercmd s = .next { s with mode := .holds .command })

/-- R108: ENTERDATA in `READY`, on each transport. -/
def Obligations.EnterdataResult : Prop :=
  encode .enterdata = 0xD000#16 ∧
  (∀ s : State, s.seq = .ready → s.cfg.transport = .serial → exec .enterdata s = .next { s with
    dc := .driven .data, mode := .holds .data, trace := s.trace ++ [.pin (.dc .data)] }) ∧
  (∀ s : State, s.seq = .ready → s.cfg.transport = .batched →
    exec .enterdata s = .next { s with mode := .holds .data })

/-- R109, R110 to R115: the words of the six command operations, and what each accepts in `READY`: `lat` gets the operand
or the table byte, `seq` gets `C_ENTER`, nothing else of the spec's state changes. -/
def Obligations.CommandOperationsStart : Prop :=
  ∀ s : State, s.seq = .ready →
    (∀ k : Byte, encode (.sendcmd k) = 0xB000#16 + k.zeroExtend 16 ∧
      exec (.sendcmd k) s = .next { s with lat := k, cmdSrc := .raw, seq := .cEnter }) ∧
    (∀ b : Bool, encode (.setpwr b) = (if b then 0x3001#16 else 0x3000#16) ∧ exec (.setpwr b) s =
      .next { s with lat := cmdRom s.cfg .pwr b, cmdSrc := .flag .pwr b, seq := .cEnter }) ∧
    (∀ b : Bool, encode (.setinv b) = (if b then 0x4001#16 else 0x4000#16) ∧ exec (.setinv b) s =
      .next { s with lat := cmdRom s.cfg .inv b, cmdSrc := .flag .inv b, seq := .cEnter }) ∧
    (∀ b : Bool, encode (.setallon b) = (if b then 0x5001#16 else 0x5000#16) ∧ exec (.setallon b) s =
      .next { s with lat := cmdRom s.cfg .allon b, cmdSrc := .flag .allon b, seq := .cEnter }) ∧
    (∀ b : Bool, encode (.setfliph b) = (if b then 0x6001#16 else 0x6000#16) ∧ exec (.setfliph b) s =
      .next { s with lat := cmdRom s.cfg .fliph b, cmdSrc := .flag .fliph b, seq := .cEnter }) ∧
    (∀ b : Bool, encode (.setflipv b) = (if b then 0x7001#16 else 0x7000#16) ∧ exec (.setflipv b) s =
      .next { s with lat := cmdRom s.cfg .flipv b, cmdSrc := .flag .flipv b, seq := .cEnter })

/-- R109: the micro-steps C_ENTER, C_SEND and C_RESTORE as written, on each transport, and their two waits. -/
def Obligations.CommandMicroStepsAsWritten : Prop :=
  (∀ s : State, s.seq = .cEnter → s.cfg.transport = .serial → microStep s = .next { s with
    dc := .driven .command, mode := .holds .command, trace := s.trace ++ [.pin (.dc .command)], seq := .cSend }) ∧
  (∀ s : State, s.seq = .cSend → s.cfg.transport = .serial → s.busReady = true → s.spiBusy = false →
    microStep s = .next { s with spiDr := s.lat, spiBusy := true, seq := .cRestore }) ∧
  (∀ s : State, s.seq = .cRestore → s.cfg.transport = .serial → s.spiBusy = true → microStep s = .next s) ∧
  (∀ s : State, s.seq = .cRestore → s.cfg.transport = .serial → s.spiBusy = false → microStep s = .next { s with
    dc := .driven .data, mode := .holds .data, trace := s.trace ++ [.pin (.dc .data)], seq := .ready
    disp := s.disp.afterCommand s.cmdSrc }) ∧
  (∀ s : State, s.seq = .cEnter → s.cfg.transport = .batched → s.busReady = true → s.txOpen = false →
    s.txBusy = false → 2 ≤ s.cfg.txbufCap → microStep s = .next { s with
      mode := .holds .command, txOpen := true, txBuf := [0x80#8, s.lat], seq := .cSend }) ∧
  (∀ s : State, s.seq = .cSend → s.cfg.transport = .batched → s.txOpen = true →
    microStep s = .next { s with txOpen := false, txBusy := true, seq := .cRestore }) ∧
  (∀ s : State, s.seq = .cRestore → s.cfg.transport = .batched → s.txBusy = true → microStep s = .next s) ∧
  (∀ s : State, s.seq = .cRestore → s.cfg.transport = .batched → s.txBusy = false → microStep s = .next { s with
    mode := .holds .data, seq := .ready, disp := s.disp.afterCommand s.cmdSrc })

/-- R109, R110: whatever the bus environment does and whatever the mode was, if SENDCMD or a mode operation returns to
READY, then it has sent its one byte in command mode, the mode is Data, the ghost has its one update (R46), and nothing
else has changed. -/
def Obligations.CommandEndStateUnderEverySchedule : Prop :=
  ∀ (s s' t : State) (i : Instr) (c : Byte) (src : CmdSource) (k : Nat),
    s.inv = true → s.calm = true → s.seq = .ready →
    ((i = .sendcmd c ∧ src = .raw) ∨
      ∃ f b, c = cmdRom s.cfg f b ∧ src = .flag f b ∧
        i = (match f with
          | .pwr => .setpwr b
          | .inv => .setinv b
          | .allon => .setallon b
          | .fliph => .setfliph b
          | .flipv => .setflipv b)) →
    exec i s = .next s' → run k s' = .next t → t.seq = .ready → t = commandDone s c src t.sched

/-- R109, R173: on a bus that never stalls, SENDCMD and the five mode operations return to READY in three turns of the
block. -/
def Obligations.CommandsCompleteOnAPromptBus : Prop :=
  ∀ (s : State) (i : Instr) (rest : List Move), s.inv = true → s.seq = .ready →
    ((∃ k, i = .sendcmd k) ∨
      ∃ b, i = .setpwr b ∨ i = .setinv b ∨ i = .setallon b ∨ i = .setfliph b ∨ i = .setflipv b) →
    ∃ s' t, exec i { s with sched := promptTurns 3 ++ rest } = .next s' ∧
      run 9 s' = .next t ∧ t.seq = .ready ∧ t.sched = rest

/-- R110, R112: `SETINV 1` then `SETINV 0` sends exactly the two corresponding bytes, distinct, in that order, in command
mode, with no other byte between them; on each transport, on a bus that never stalls. -/
def Obligations.InvertPairSendsTwoDistinctBytes : Prop :=
  ∀ (s : State) (rest : List Move), s.inv = true → s.seq = .ready →
    s.sched = .present 0x4001#16 :: (promptTurns 3 ++ .present 0x4000#16 :: (promptTurns 3 ++ rest)) →
    ∃ t es, run 20 s = .next t ∧ t.trace = s.trace ++ es ∧
      wireFrom .data es = [(.command, s.cfg.cmd.inv.on), (.command, s.cfg.cmd.inv.off)] ∧
      s.cfg.cmd.inv.on ≠ s.cfg.cmd.inv.off ∧ t.disp.inverted = (if s.disp.valid then some false else none)

/-- R116: at no moment of a mode operation are RST, CS, FB, `phase`, the indicators or the power gates touched; and once
it is back in READY it has sent exactly one byte. -/
def Obligations.ModeOperationsTouchNothingElse : Prop :=
  ∀ (s s' t : State) (i : Instr) (k : Nat), s.inv = true → s.calm = true → s.seq = .ready →
    (∃ b, i = .setpwr b ∨ i = .setinv b ∨ i = .setallon b ∨ i = .setfliph b ∨ i = .setflipv b) →
    exec i s = .next s' → run k s' = .next t →
    t.rst = s.rst ∧ t.cs = s.cs ∧ t.fb = s.fb ∧ t.fbLen = s.fbLen ∧ t.phase = s.phase ∧ t.ind = s.ind ∧
    t.pwrGated = s.pwrGated ∧
    ∃ es, t.trace = s.trace ++ es ∧ readIndices es = [] ∧ (t.seq = .ready → (wireFrom .data es).length = 1)

/-! ### PAINT (43_frame_transfer.md) -/

/-- R140: PAINT in `READY`, with `N` bytes in FB: `clr`, `ft_idx` and `seq` are set, nothing else. -/
def Obligations.PaintStarts : Prop :=
  (∀ b : Bool, encode (.paint b) = if b then 0x2001#16 else 0x2000#16) ∧
  (∀ (s : State) (b : Bool), s.seq = .ready → s.cfg.frameLen ≤ s.fbLen → s.cfg.transport = .serial →
    exec (.paint b) s = .next { s with clr := b, ftIdx := 0, seq := .pFetch }) ∧
  (∀ (s : State) (b : Bool), s.seq = .ready → s.cfg.frameLen ≤ s.fbLen → s.cfg.transport = .batched →
    exec (.paint b) s = .next { s with clr := b, ftIdx := 0, seq := .qOpen })

/-- R142, R143, R146, R147 (SERIAL): whatever the bus environment does, a PAINT that returns to READY has sent the bytes
`d_0 .. d_(N-1)` in order, with one of the interleavings of R146; the state is that of R147 and nothing else has changed. -/
def Obligations.SerialPaintEndStateUnderEverySchedule : Prop :=
  ∀ (s s' t : State) (clear : Bool) (k : Nat), s.inv = true → s.calm = true → s.seq = .ready →
    s.cfg.transport = .serial → exec (.paint clear) s = .next s' → run k s' = .next t → t.seq = .ready →
    ∃ early : Nat → Bool, t = serialPaintDone s clear early t.sched

/-- R142, R145, R146, R147 (BATCHED): the same, with the one trace of R146. -/
def Obligations.BatchedPaintEndStateUnderEverySchedule : Prop :=
  ∀ (s s' t : State) (clear : Bool) (k : Nat), s.inv = true → s.calm = true → s.seq = .ready →
    s.cfg.transport = .batched → exec (.paint clear) s = .next s' → run k s' = .next t → t.seq = .ready →
    t = batchedPaintDone s clear t.sched

/-- R66, R146: every interleaving the spec admits does occur, under some schedule of the bus environment. -/
def Obligations.EverySerialInterleavingOccurs : Prop :=
  ∀ (s : State) (clear : Bool) (early : Nat → Bool), s.inv = true → s.seq = .ready → s.cfg.transport = .serial →
    s.cfg.frameLen ≤ s.fbLen →
    ∃ (sch : List Move) (s' t : State), sch.all Move.quiet = true ∧
      exec (.paint clear) { s with sched := sch } = .next s' ∧ run sch.length s' = .next t ∧
      t = serialPaintDone s clear early []

/-- R143, R145, R173: on a bus that never stalls PAINT returns to READY, on each transport, in the number of turns the
loops take; that a chunk takes CHUNK_SIZE + 4 turns rests on the two turns of Q_CLOSE (log 12). -/
def Obligations.PaintCompletesOnAPromptBus : Prop :=
  ∀ (s : State) (clear : Bool) (rest : List Move), s.inv = true → s.seq = .ready → s.cfg.frameLen ≤ s.fbLen →
    ∃ s' t, exec (.paint clear) { s with sched := promptTurns (turnsNeeded s.cfg (.paint clear)) ++ rest } = .next s' ∧
      run (3 * turnsNeeded s.cfg (.paint clear)) s' = .next t ∧ t.seq = .ready ∧ t.sched = rest

/-- R142: on both transports, the bytes on the wire are the `N` bytes of the frame in index order with no gap, reordering
or duplication and no byte beside them, all read in the mode in force (data mode, unless the host left a SERIAL link in
command mode, R141); with `clear = false` every index is read exactly once, in order, with `clear = true` none is. -/
def Obligations.PaintSendsTheFrameInRasterOrder : Prop :=
  ∀ (s s' t : State) (clear : Bool) (k : Nat), s.inv = true → s.calm = true → s.seq = .ready →
    exec (.paint clear) s = .next s' → run k s' = .next t → t.seq = .ready →
    ∃ es, t.trace = s.trace ++ es ∧
      wireFrom s.frameMode es = (List.range s.cfg.frameLen).map (fun i => (s.frameMode, frameByte clear s.fb i)) ∧
      readIndices es = if clear then [] else List.range s.cfg.frameLen

/-- R144: the clear path sends `N` zero bytes whatever FB holds, reads no byte of it at any moment, and does not change
it; on both transports. -/
def Obligations.ClearPathNeverReadsTheBuffer : Prop :=
  ∀ (s s' t : State) (k : Nat), s.inv = true → s.calm = true → s.seq = .ready →
    exec (.paint true) s = .next s' → run k s' = .next t →
    t.fb = s.fb ∧ t.fbLen = s.fbLen ∧
    ∃ es, t.trace = s.trace ++ es ∧ readIndices es = [] ∧
      (t.seq = .ready → wireFrom s.frameMode es = List.replicate s.cfg.frameLen (s.frameMode, 0x00#8))

/-- R46, R147 (the ghost model is the spec's D15): a completed PAINT in data mode, or on BATCHED, leaves the frame in the
display's memory and its pointer at the origin; on SERIAL in command mode it leaves the ghost invalid. -/
def Obligations.PaintLeavesTheFrameInTheDisplay : Prop :=
  ∀ (s s' t : State) (clear : Bool) (k : Nat), s.inv = true → s.calm = true → s.seq = .ready → s.disp.valid = true →
    exec (.paint clear) s = .next s' → run k s' = .next t → t.seq = .ready →
    (s.cfg.transport = .batched ∨ s.mode = .holds .data →
      t.disp = { s.disp with
        ram := (List.range s.cfg.frameLen).map (fun i => some (frameByte clear s.fb i)), ptr := some 0 }) ∧
    (s.cfg.transport = .serial ∧ s.mode = .holds .command → t.disp.valid = false ∧ t.disp.ptr = none)

/-- R72, R175: with fewer than `N` bytes in FB a PAINT is refused; with more, only the first `N` are read. The refusal of
the clear path too is the model's reading (log 15). -/
def Obligations.FrameBufferLengthRule : Prop :=
  (∀ (s : State) (b : Bool), s.seq = .ready → s.fbLen < s.cfg.frameLen → exec (.paint b) s = .refused .fbTooShort) ∧
  (∀ (s t : State) (i : Nat) (v : Byte), microStep s = .next t → t.trace = s.trace ++ [.fbRead i v] →
    i < s.cfg.frameLen ∧ v = s.fb.read i)

/-! ### The Power & Indicator Controller (44_power_indicator.md) -/

/-- R155: IDLE is accepted in `READY` only, emits EvSleep and enters `I_SLEEP`; there the block takes no step of its own and
accepts no operation. -/
def Obligations.IdleEntersSleep : Prop :=
  encode .idle = 0x8000#16 ∧
  (∀ s : State, s.seq = .ready →
    exec .idle s = .next { s with trace := s.trace ++ [.sleep], seq := .iSleep, phase := .idle }) ∧
  (∀ s : State, s.seq ≠ .ready → refuses (exec .idle s) = true) ∧
  (∀ s : State, s.seq = .iSleep → microStep s = .next s) ∧
  (∀ (s : State) (i : Instr), s.seq = .iSleep → refuses (exec i s) = true)

/-- R158: between EvSleep and EvWake nothing changes, and after the wake everything is as it was before the IDLE. -/
def Obligations.SleepChangesNothing : Prop :=
  ∀ (s s' t : State) (k : Nat), s.inv = true → s.calm = true → s.seq = .ready →
    exec .idle s = .next s' → run k s' = .next t →
    t = { s' with sched := t.sched } ∨ t = { s with trace := s.trace ++ [.sleep, .irq, .wake], sched := t.sched }

/-- R157 (the spec's D16): with interrupts disabled, or with no interrupt, the sleep does not end. -/
def Obligations.SleepWithoutInterruptDoesNotEnd : Prop :=
  ∀ (s t : State) (k : Nat), s.seq = .iSleep → s.calm = true → run k s = .next t →
    s.irqEn = false ∨ .irq ∉ s.sched → t.seq = .iSleep

/-- R160: SETIND in `READY` with a channel that exists, on each indicator variant; a channel that does not exist makes the
word reserved. -/
def Obligations.SetindResult : Prop :=
  (∀ (ch : BitVec 4) (v : Byte), (encode (.setind ch v)).toNat = 0x9000 + ch.toNat * 256 + v.toNat) ∧
  (∀ (s : State) (ch : BitVec 4) (v : Byte), s.seq = .ready → ch.toNat < s.cfg.nChannels → s.cfg.indicator = .pwm →
    exec (.setind ch v) s = .next { s with
      ind := s.ind.set ch.toNat (.pwm v), trace := s.trace ++ [.ind ch.toNat (.pwm v)] }) ∧
  (∀ (s : State) (ch : BitVec 4) (v : Byte), s.seq = .ready → ch.toNat < s.cfg.nChannels → s.cfg.indicator = .onoff →
    exec (.setind ch v) s = .next { s with
      ind := s.ind.set ch.toNat (.onoff (v != 0#8)), trace := s.trace ++ [.ind ch.toNat (.onoff (v != 0#8))] }) ∧
  (∀ (s : State) (ch : BitVec 4) (v : Byte), s.cfg.nChannels ≤ ch.toNat →
    exec (.setind ch v) s = .refused (.reservedWord .channel)) ∧
  (∀ (s : State) (ch : BitVec 4) (v : Byte), s.seq ≠ .ready → refuses (exec (.setind ch v) s) = true)

/-- R162, R163 (order and acceptance in `W_BOOT` are the spec's D17): EXITHALT is accepted whenever the block is ready,
and its three micro-steps are as written. -/
def Obligations.ExithaltMicroStepsAsWritten : Prop :=
  encode .exithalt = 0xA000#16 ∧
  (∀ s : State, s.seq = .ready ∨ s.seq = .wBoot → exec .exithalt s = .next { s with seq := .xIrq }) ∧
  (∀ s : State, s.seq ≠ .ready → s.seq ≠ .wBoot → refuses (exec .exithalt s) = true) ∧
  (∀ s : State, s.seq = .xIrq →
    microStep s = .next { s with irqEn := false, trace := s.trace ++ [.irqOff], seq := .xLink }) ∧
  (∀ s : State, s.seq = .xLink →
    microStep s = .next { s with hostlinkEn := false, trace := s.trace ++ [.hostLinkOff], seq := .xHandoff }) ∧
  (∀ s : State, s.seq = .xHandoff → microStep s = .next { s with
    trace := s.trace ++ [.handoff], seq := .hLoader, phase := .loaderHalt })

/-- R163, R164: from either ready state, under every schedule, EXITHALT is still in one of its micro-states or has ended
in the one end state; three turns of the block always suffice; and there the block takes no step and accepts no
operation. -/
def Obligations.ExithaltReachesTheLoader : Prop :=
  (∀ (s s' t : State) (k : Nat), s.inv = true → s.calm = true → exec .exithalt s = .next s' → run k s' = .next t →
    t.seq = .xIrq ∨ t.seq = .xLink ∨ t.seq = .xHandoff ∨ t = exitDone s t.sched) ∧
  (∀ (s s' : State) (rest : List Move), exec .exithalt { s with sched := .block :: .block :: .block :: rest } = .next s' →
    run 3 s' = .next (exitDone s rest)) ∧
  (∀ s : State, s.seq = .hLoader → microStep s = .next s ∧ ∀ i : Instr, refuses (exec i s) = true)

/-- R174, R122 (a halt as a hold, D30, log 10): in a terminal state no schedule of the block, the bus and the interrupts
changes anything, and every operation is refused. -/
def Obligations.TerminalStatesAreTerminal : Prop :=
  ∀ s : State, s.inv = true → s.halted = true →
    (∀ (t : State) (k : Nat), s.calm = true → run k s = .next t → t = { s with sched := t.sched }) ∧
    (∀ i : Instr, refuses (exec i s) = true)

/-! ### The bus (40_bus_driver.md, 20_memory.md) -/

/-- R96, R97, R100 to R102: the primitives as written, and in every other case where each waits or is refused: XFER waits
with a byte in flight (log 13), TXBEGIN while a batch is being flushed, and an unmet `require` is refused (log 14). -/
def Obligations.BusPrimitivesAsWritten : Prop :=
  (∀ (s : State) (b : Byte), s.busReady = true → s.spiBusy = false →
    xferStart b s = .go { s with spiDr := b, spiBusy := true }) ∧
  (∀ (s : State) (b : Byte), s.busReady = true → s.spiBusy = true → xferStart b s = .wait) ∧
  (∀ (s : State) (b : Byte), s.busReady = false → xferStart b s = .refuse .busNotReady) ∧
  (∀ s : State, s.busReady = true → s.txOpen = false → s.txBusy = false →
    txBegin s = .go { s with txBuf := [], txOpen := true }) ∧
  (∀ s : State, s.busReady = true → s.txOpen = false → s.txBusy = true → txBegin s = .wait) ∧
  (∀ s : State, s.busReady = true → s.txOpen = true → txBegin s = .refuse .batchProtocol) ∧
  (∀ s : State, s.busReady = false → txBegin s = .refuse .busNotReady) ∧
  (∀ (s : State) (b : Byte), s.txOpen = true → s.txBuf.length < s.cfg.txbufCap →
    txWrite b s = .go { s with txBuf := s.txBuf ++ [b] }) ∧
  (∀ (s : State) (b : Byte), s.txOpen = true → s.cfg.txbufCap ≤ s.txBuf.length →
    txWrite b s = .refuse .batchOverflow) ∧
  (∀ (s : State) (b : Byte), s.txOpen = false → txWrite b s = .refuse .batchProtocol) ∧
  (∀ s : State, s.txOpen = true → txEndStart s = .go { s with txOpen := false, txBusy := true }) ∧
  (∀ s : State, s.txOpen = false → txEndStart s = .refuse .batchProtocol)

/-- R65, R96: a byte is started only when none is in flight, the frame transfer included: with the shifter busy no step
overwrites the data register, and a start waits (that it waits and is not refused is log 13). -/
def Obligations.OneByteInFlight : Prop :=
  (∀ (s : State) (b : Byte), s.busReady = true → s.spiBusy = true → xferStart b s = .wait) ∧
  (∀ s t : State, s.inv = true → step s = .next t → s.spiBusy = true → t.spiBusy = true → t.spiDr = s.spiDr)

/-- R98 (its completion as a step of the environment is the spec's D20): only SerialDone ends a byte in flight, short of a
reset, and only it reports a byte, the one in the data register. -/
def Obligations.OnlySerialDoneCompletesAByte : Prop :=
  ∀ s t : State, s.inv = true → step s = .next t →
    (s.spiBusy = true → t.spiBusy = false →
      (∃ rest, s.sched = .serialDone :: rest) ∨ ∃ p rest, s.sched = .reset p :: rest) ∧
    (∀ b : Byte, t.trace = s.trace ++ [.serial b] →
      (∃ rest, s.sched = .serialDone :: rest) ∧ s.spiBusy = true ∧ b = s.spiDr)

/-- R103: only BatchDone ends a batch being flushed, short of a reset, and only it reports a batch: the bytes of `tx_buf`,
to the one address. -/
def Obligations.OnlyBatchDoneDeliversABatch : Prop :=
  ∀ s t : State, s.inv = true → step s = .next t →
    (s.txBusy = true → t.txBusy = false →
      (∃ rest, s.sched = .batchDone :: rest) ∨ ∃ p rest, s.sched = .reset p :: rest) ∧
    (∀ (a : Nat) (bs : List Byte), t.trace = s.trace ++ [.batch a bs] →
      (∃ rest, s.sched = .batchDone :: rest) ∧ s.txBusy = true ∧ a = s.cfg.periphAddr ∧ bs = s.txBuf)

/-- R84 (one command byte a batch is the spec's D12): every batch goes to the one address and has one of two shapes,
`[0x80, c]` or `[0x40]` and a whole chunk. -/
def Obligations.TwoBatchShapes : Prop :=
  ∀ (s t : State) (a : Nat) (bs : List Byte), s.inv = true → step s = .next t → t.trace = s.trace ++ [.batch a bs] →
    a = s.cfg.periphAddr ∧
    ((∃ c, bs = [0x80#8, c]) ∨ ∃ chunk, bs = 0x40#8 :: chunk ∧ chunk.length = s.cfg.chunkSize)

/-- R173, R149 (the spec's D20): in a waiting micro-state, as long as the environment takes no step, the block stays there
for ever and nothing changes. -/
def Obligations.StalledBlockStaysStuck : Prop :=
  ∀ (s : State) (n : Nat), s.inv = true → s.waiting = true → s.sched.all (· == .block) = true →
    run n s = .next { s with sched := s.sched.drop n }

/-! ### The whole machine -/

/-- The invariant of the machine holds after every reset of a well-formed configuration, whatever the platform's inputs,
and so in the host's reset state. -/
def Obligations.InvariantHoldsAtReset : Prop :=
  (∀ (c : Cfg) (p : Platform), c.wf = true → (State.resetWith c p).inv = true) ∧ State.reset.inv = true

/-- Every step keeps the invariant: the canonical form of FB, the phase of each micro-state (R31), the index ranges (R33),
the bus flags and what is in flight (R34 to R36, R65), the line latches and the mode (R34, R37), the outputs (R38, R39)
and the ghost state (R45, R46). -/
def Obligations.EveryStepKeepsTheInvariant : Prop :=
  ∀ s t : State, s.inv = true → step s = .next t → t.inv = true

/-- R170, R172, R175: under the invariant the block's own micro-step is never refused: every operation that was accepted
either goes on or waits, and only a request from outside can be refused. -/
def Obligations.BlockNeverRefusesByItself : Prop :=
  ∀ s : State, s.inv = true → ∃ t, microStep s = .next t

/-- R105, R197: once `mode = Data` holds between operations it goes on holding there, unless the host issues ENTERCMD. -/
def Obligations.DataModeIsKeptWithoutEntercmd : Prop :=
  ∀ s t : State, s.inv = true → dataReady s = true → step s = .next t →
    (∀ rest, s.sched ≠ .present 0xC000#16 :: rest) → dataReady t = true

/-- R166: every change of `phase` is one of the table's transitions, by the table's cause, a reset leading to BOOT; and
each of the table's causes makes its transition. -/
def Obligations.PhaseTransitionsAreTheTable : Prop :=
  (∀ s t : State, s.inv = true → step s = .next t → t.phase ≠ s.phase →
    (s.phase = .boot ∧ t.phase = .running ∧ s.seq = .b7Pwr) ∨
    (s.phase = .boot ∧ t.phase = .safeHalt ∧ s.seq = .b1Safe ∧ s.btnConfirm = true) ∨
    (s.phase = .boot ∧ t.phase = .loaderHalt ∧ s.seq = .xHandoff) ∨
    (s.phase = .running ∧ t.phase = .idle ∧ s.seq = .ready ∧ ∃ rest, s.sched = .present 0x8000#16 :: rest) ∨
    (s.phase = .idle ∧ t.phase = .running ∧ s.seq = .iSleep ∧ s.irqEn = true ∧ ∃ rest, s.sched = .irq :: rest) ∨
    (s.phase = .running ∧ t.phase = .loaderHalt ∧ s.seq = .xHandoff) ∨
    (t.phase = .boot ∧ ∃ p rest, s.sched = .reset p :: rest)) ∧
  (∀ s : State, s.seq = .b7Pwr → ∃ t, microStep s = .next t ∧ t.phase = .running) ∧
  (∀ s : State, s.seq = .b1Safe → s.btnConfirm = true → ∃ t, microStep s = .next t ∧ t.phase = .safeHalt) ∧
  (∀ s : State, s.seq = .xHandoff → ∃ t, microStep s = .next t ∧ t.phase = .loaderHalt) ∧
  (∀ s : State, s.seq = .ready → ∃ t, exec .idle s = .next t ∧ t.phase = .idle) ∧
  (∀ (s : State) (rest : List Move), s.sched = .irq :: rest → s.seq = .iSleep → s.irqEn = true →
    ∃ t, step s = .next t ∧ t.phase = .running) ∧
  (∀ (s : State) (p : Platform) (rest : List Move), s.sched = .reset p :: rest →
    ∃ t, step s = .next t ∧ t.phase = .boot) ∧
  (∀ (s : State) (b : Bool), s.seq = .ready → ∃ t, exec (.setpwr b) s = .next t ∧ t.phase = s.phase)

/-- R37: the latches are undriven before boot step 1. Short of a reset, `rst` and `cs` are written only by the boot
sequence, `dc` only there and by mode changes, each to the value driven. From boot step 4 on CS stays asserted and from
step 3c on RST stays high, through every operation. -/
def Obligations.LineLatchesAreWrittenOnlyWhereStated : Prop :=
  (∀ s : State, s.inv = true → s.seq = .wBoot ∨ s.seq = .b1Pins →
    s.rst = .undriven ∧ s.cs = .undriven ∧ s.dc = .undriven) ∧
  (∀ s t : State, s.inv = true → step s = .next t → (∀ p rest, s.sched ≠ .reset p :: rest) →
    (t.rst ≠ s.rst → (s.seq = .b1Pins ∧ t.rst = .driven s.cfg.pinInit.rst) ∨
      ((s.seq = .b3RstLo ∨ s.seq = .b3RstHi) ∧ ∃ v, t.rst = .driven v ∧ t.trace = s.trace ++ [.pin (.rst v)])) ∧
    (t.cs ≠ s.cs → (s.seq = .b1Pins ∧ t.cs = .driven s.cfg.pinInit.cs) ∨
      (s.seq = .b4Cs ∧ ∃ v, t.cs = .driven v ∧ t.trace = s.trace ++ [.pin (.cs v)])) ∧
    (t.dc ≠ s.dc → (s.seq = .b1Pins ∧ t.dc = .driven s.cfg.pinInit.dc) ∨
      ((s.seq = .b5Cmd ∨ s.seq = .b6Data ∨ s.seq = .cEnter ∨ s.seq = .cRestore ∨
        ∃ rest, s.sched = .present 0xC000#16 :: rest ∨ s.sched = .present 0xD000#16 :: rest) ∧
        ∃ v, t.dc = .driven v ∧ t.trace = s.trace ++ [.pin (.dc v)])) ∧
    (s.booted = true ∨ s.seq = .b5Cmd ∨ s.seq = .b5Prog ∨ s.seq = .b6Data ∨ s.seq = .b7Pwr →
      s.cs = .driven .asserted ∧ t.cs = .driven .asserted) ∧
    (s.booted = true ∨ s.seq = .b3Settle ∨ s.seq = .b4Cs ∨ s.seq = .b5Cmd ∨ s.seq = .b5Prog ∨ s.seq = .b6Data ∨
        s.seq = .b7Pwr →
      s.rst = .driven .high ∧ t.rst = .driven .high))

/-- R22: the block never writes FB: only the host's own moves and a reset change it. It reads it only through `FbRead(i)`
with `i < N`, one byte a step, only during a PAINT. -/
def Obligations.BlockNeverWritesTheFrameBuffer : Prop :=
  ∀ s t : State, s.inv = true → step s = .next t →
    ((∀ i v rest, s.sched ≠ .fbWrite i v :: rest) → (∀ bs rest, s.sched ≠ .fbSupply bs :: rest) →
      (∀ p rest, s.sched ≠ .reset p :: rest) → t.fbLen = s.fbLen ∧ ∀ a, t.fb.read a = s.fb.read a) ∧
    (∀ (es : List Event) (i : Nat) (v : Byte), t.trace = s.trace ++ es → .fbRead i v ∈ es →
      es = [.fbRead i v] ∧ s.painting = true ∧ s.clr = false ∧ i < s.cfg.frameLen ∧ v = s.fb.read i)

/-- R71, R175 (D28): outside a PAINT a host write inside the buffer is accepted and changes exactly the byte it names, and a
new buffer is accepted and holds the bytes supplied; nothing else changes. During a PAINT both are refused. That the host
may supply a buffer of any length, and that a write outside its buffer is refused, is the model's (log 16). -/
def Obligations.HostWritesBetweenPaintsOnly : Prop :=
  (∀ (s : State) (i : Nat) (v : Byte) (rest : List Move), s.inv = true → s.sched = .fbWrite i v :: rest →
    s.painting = false → i < s.fbLen →
    ∃ t, step s = .next t ∧ t.fb.read i = v ∧ (∀ a, a ≠ i → t.fb.read a = s.fb.read a) ∧
      t = { s with fb := t.fb, sched := rest }) ∧
  (∀ (s : State) (bs : List Byte) (rest : List Move), s.sched = .fbSupply bs :: rest → s.painting = false →
    ∃ t, step s = .next t ∧ (∀ a v, bs[a]? = some v → t.fb.read a = v) ∧
      t = { s with fb := t.fb, fbLen := bs.length, sched := rest }) ∧
  (∀ (s : State) (i : Nat) (v : Byte) (rest : List Move), s.sched = .fbWrite i v :: rest → s.painting = true →
    step s = .refused .fbBusy) ∧
  (∀ (s : State) (bs : List Byte) (rest : List Move), s.sched = .fbSupply bs :: rest → s.painting = true →
    step s = .refused .fbBusy) ∧
  (∀ (s : State) (i : Nat) (v : Byte) (rest : List Move), s.sched = .fbWrite i v :: rest → s.painting = false →
    s.fbLen ≤ i → step s = .refused .fbOutOfRange)

/-- R175: a word presented while the block is not ready is refused, and so is another agent driving the bus (R199). -/
def Obligations.UnreadyWordsAndForeignDriversAreRefused : Prop :=
  (∀ (s : State) (w : OpWord) (rest : List Move), s.sched = .present w :: rest → s.isReady = false →
    refuses (step s) = true) ∧
  (∀ (s : State) (rest : List Move), s.sched = .foreignDrive :: rest → step s = .refused .foreignDriver)

/-- R27: the trace is a history: short of a reset, a step only appends to it, at most two events. -/
def Obligations.TraceOnlyGrows : Prop :=
  ∀ s t : State, step s = .next t → (∀ p rest, s.sched ≠ .reset p :: rest) →
    ∃ es : List Event, t.trace = s.trace ++ es ∧ es.length ≤ 2

/-- R7, R28: no step changes the configuration. -/
def Obligations.ConfigurationNeverChanges : Prop :=
  ∀ s t : State, step s = .next t → t.cfg = s.cfg

/-- R39, R40 (D17): short of a reset, `pwr_gated` is written only by boot step 7, to `UNUSED_DOMAINS`; and short of a
reset and of the platform, `irq_en` and `hostlink_en` are written only by EXITHALT, to false. -/
def Obligations.GatesAndEnablesAreWrittenOnce : Prop :=
  ∀ s t : State, step s = .next t → (∀ p rest, s.sched ≠ .reset p :: rest) →
    (t.pwrGated ≠ s.pwrGated → s.seq = .b7Pwr ∧ t.pwrGated = s.cfg.unusedDomains) ∧
    ((∀ i h rest, s.sched ≠ .platform i h :: rest) →
      (t.irqEn ≠ s.irqEn → s.seq = .xIrq ∧ t.irqEn = false) ∧
      (t.hostlinkEn ≠ s.hostlinkEn → s.seq = .xLink ∧ t.hostlinkEn = false))

/-- R177 (D36): an interrupt outside an idle sleep changes nothing of the machine. -/
def Obligations.InterruptsOutsideSleepAreInvisible : Prop :=
  ∀ (s : State) (rest : List Move), s.sched = .irq :: rest → s.seq ≠ .iSleep → step s = .next { s with sched := rest }
end

