-- ==== Sys2Proof/Laws/Memory.lean ====
section
/-! SUPPORT. The canonical form of FB: every memory operation keeps it, and a read after a write. -/

namespace Sys2Proof.Machine

@[simp] theorem Memory.read_nil (a : Nat) : Memory.read [] a = Memory.unlisted := rfl

theorem Memory.read_cons (b : Nat) (x : Byte) (m : Memory) (a : Nat) :
    Memory.read ((b, x) :: m) a = if a = b then x else Memory.read m a := rfl

@[simp] theorem Memory.wfFrom_nil (lo : Nat) : Memory.wfFrom lo [] = true := rfl

theorem Memory.wfFrom_cons (lo a : Nat) (x : Byte) (m : Memory) :
    Memory.wfFrom lo ((a, x) :: m) = true ↔
      lo ≤ a ∧ x ≠ Memory.unlisted ∧ Memory.wfFrom (a + 1) m = true := by
  simp [Memory.wfFrom, and_assoc]

theorem Memory.wfFrom_mono {lo lo' : Nat} (h : lo ≤ lo') :
    ∀ {m : Memory}, Memory.wfFrom lo' m = true → Memory.wfFrom lo m = true
  | [], _ => rfl
  | (a, x) :: m, hm => by
    rw [Memory.wfFrom_cons] at *
    exact ⟨Nat.le_trans h hm.1, hm.2⟩

theorem Memory.read_below {lo a : Nat} (h : a < lo) :
    ∀ {m : Memory}, Memory.wfFrom lo m = true → Memory.read m a = Memory.unlisted
  | [], _ => rfl
  | (b, x) :: m, hm => by
    rw [Memory.wfFrom_cons] at hm
    rw [Memory.read_cons, if_neg (by omega)]
    exact Memory.read_below (by omega) hm.2.2

theorem Memory.put_wfFrom {lo a : Nat} {v : Byte} {m : Memory} (h : lo ≤ a)
    (hm : Memory.wfFrom (a + 1) m = true) : Memory.wfFrom lo (Memory.put a v m) = true := by
  unfold Memory.put
  split
  · exact Memory.wfFrom_mono (by omega) hm
  · rename_i hv
    exact (Memory.wfFrom_cons ..).mpr ⟨h, hv, hm⟩

theorem Memory.write_wfFrom {lo a : Nat} {v : Byte} (h : lo ≤ a) :
    ∀ {m : Memory}, Memory.wfFrom lo m = true → Memory.wfFrom lo (Memory.write m a v) = true
  | [], _ => Memory.put_wfFrom h rfl
  | (b, x) :: m, hm => by
    have hm' := (Memory.wfFrom_cons ..).mp hm
    unfold Memory.write
    split
    · exact Memory.put_wfFrom h ((Memory.wfFrom_cons ..).mpr ⟨by omega, hm'.2⟩)
    · split
      · rename_i _ hab
        subst hab
        exact Memory.put_wfFrom h hm'.2.2
      · exact (Memory.wfFrom_cons ..).mpr ⟨hm'.1, hm'.2.1, Memory.write_wfFrom (by omega) hm'.2.2⟩

/-- A write keeps the canonical form. -/
theorem Memory.write_wf {m : Memory} (a : Nat) (v : Byte) (h : m.wf = true) : (m.write a v).wf = true :=
  Memory.write_wfFrom (Nat.zero_le a) h

theorem Memory.ofBytesFrom_wfFrom :
    ∀ (k : Nat) (vs : List Byte), Memory.wfFrom k (Memory.ofBytesFrom k vs) = true
  | _, [] => rfl
  | k, _ :: vs => Memory.put_wfFrom (Nat.le_refl k) (Memory.ofBytesFrom_wfFrom (k + 1) vs)

/-- The memory of a buffer is in canonical form. -/
theorem Memory.ofBytes_wf (vs : List Byte) : (Memory.ofBytes vs).wf = true := Memory.ofBytesFrom_wfFrom 0 vs

theorem Memory.read_put_same {a : Nat} {v : Byte} {m : Memory} (hm : Memory.wfFrom (a + 1) m = true) :
    Memory.read (Memory.put a v m) a = v := by
  unfold Memory.put
  split
  · rename_i hv
    rw [Memory.read_below (Nat.lt_succ_self a) hm, hv]
  · simp [Memory.read_cons]

theorem Memory.read_put_other {a b : Nat} {v : Byte} {m : Memory} (h : b ≠ a) :
    Memory.read (Memory.put a v m) b = Memory.read m b := by
  unfold Memory.put
  split
  · rfl
  · simp [Memory.read_cons, h]

theorem Memory.read_write_same_from {lo a : Nat} {v : Byte} :
    ∀ {m : Memory}, Memory.wfFrom lo m = true → Memory.read (Memory.write m a v) a = v
  | [], _ => Memory.read_put_same rfl
  | (b, x) :: m, hm => by
    have hm' := (Memory.wfFrom_cons ..).mp hm
    unfold Memory.write
    split
    · exact Memory.read_put_same ((Memory.wfFrom_cons ..).mpr ⟨by omega, hm'.2⟩)
    · split
      · rename_i _ hab
        subst hab
        exact Memory.read_put_same hm'.2.2
      · rename_i hab
        rw [Memory.read_cons, if_neg hab]
        exact Memory.read_write_same_from hm'.2.2

/-- A read after a write to the same index gives the byte written. -/
theorem Memory.read_write_same {m : Memory} (a : Nat) (v : Byte) (h : m.wf = true) : (m.write a v).read a = v :=
  Memory.read_write_same_from h

/-- A write leaves every other index alone. -/
theorem Memory.read_write_other {a b : Nat} {v : Byte} (h : b ≠ a) :
    ∀ {m : Memory}, Memory.read (Memory.write m a v) b = Memory.read m b
  | [] => Memory.read_put_other h
  | (c, x) :: m => by
    unfold Memory.write
    split
    · exact Memory.read_put_other h
    · split
      · rename_i _ hac
        subst hac
        rw [Memory.read_put_other h, Memory.read_cons, if_neg h]
      · rw [Memory.read_cons, Memory.read_cons, Memory.read_write_other h]

theorem Memory.read_ofBytesFrom :
    ∀ (k : Nat) (vs : List Byte) (i : Nat), k ≤ i →
      Memory.read (Memory.ofBytesFrom k vs) i = vs.getD (i - k) Memory.unlisted
  | _, [], _, _ => by simp [Memory.ofBytesFrom]
  | k, v :: vs, i, h => by
    unfold Memory.ofBytesFrom
    by_cases hik : i = k
    · subst hik
      rw [Memory.read_put_same (Memory.ofBytesFrom_wfFrom ..)]
      simp
    · rw [Memory.read_put_other hik, Memory.read_ofBytesFrom (k + 1) vs i (by omega)]
      have : i - k = (i - (k + 1)) + 1 := by omega
      rw [this]
      simp

/-- Byte `i` of a buffer reads as its `i`-th byte (R51). -/
theorem Memory.read_ofBytes (vs : List Byte) (i : Nat) : (Memory.ofBytes vs).read i = vs.getD i Memory.unlisted :=
  Memory.read_ofBytesFrom 0 vs i (Nat.zero_le i)

end Sys2Proof.Machine
end

