-- ==== Sys2Proof/Laws/State.lean ====
section
/-! SUPPORT. One lemma per field for each named update of State, and reset: later proofs read a field through an update
without unfolding it. -/

namespace Sys2Proof.Machine

/-! ### `emit` -/

@[simp] theorem State.emit_cfg (s : State) (e : Event) : (s.emit e).cfg = s.cfg := rfl
@[simp] theorem State.emit_seq (s : State) (e : Event) : (s.emit e).seq = s.seq := rfl
@[simp] theorem State.emit_phase (s : State) (e : Event) : (s.emit e).phase = s.phase := rfl
@[simp] theorem State.emit_bpIdx (s : State) (e : Event) : (s.emit e).bpIdx = s.bpIdx := rfl
@[simp] theorem State.emit_ftIdx (s : State) (e : Event) : (s.emit e).ftIdx = s.ftIdx := rfl
@[simp] theorem State.emit_ckIdx (s : State) (e : Event) : (s.emit e).ckIdx = s.ckIdx := rfl
@[simp] theorem State.emit_clr (s : State) (e : Event) : (s.emit e).clr = s.clr := rfl
@[simp] theorem State.emit_lat (s : State) (e : Event) : (s.emit e).lat = s.lat := rfl
@[simp] theorem State.emit_busReady (s : State) (e : Event) : (s.emit e).busReady = s.busReady := rfl
@[simp] theorem State.emit_spiBusy (s : State) (e : Event) : (s.emit e).spiBusy = s.spiBusy := rfl
@[simp] theorem State.emit_txOpen (s : State) (e : Event) : (s.emit e).txOpen = s.txOpen := rfl
@[simp] theorem State.emit_txBusy (s : State) (e : Event) : (s.emit e).txBusy = s.txBusy := rfl
@[simp] theorem State.emit_mode (s : State) (e : Event) : (s.emit e).mode = s.mode := rfl
@[simp] theorem State.emit_spiDr (s : State) (e : Event) : (s.emit e).spiDr = s.spiDr := rfl
@[simp] theorem State.emit_txBuf (s : State) (e : Event) : (s.emit e).txBuf = s.txBuf := rfl
@[simp] theorem State.emit_rst (s : State) (e : Event) : (s.emit e).rst = s.rst := rfl
@[simp] theorem State.emit_cs (s : State) (e : Event) : (s.emit e).cs = s.cs := rfl
@[simp] theorem State.emit_dc (s : State) (e : Event) : (s.emit e).dc = s.dc := rfl
@[simp] theorem State.emit_ind (s : State) (e : Event) : (s.emit e).ind = s.ind := rfl
@[simp] theorem State.emit_pwrGated (s : State) (e : Event) : (s.emit e).pwrGated = s.pwrGated := rfl
@[simp] theorem State.emit_irqEn (s : State) (e : Event) : (s.emit e).irqEn = s.irqEn := rfl
@[simp] theorem State.emit_hostlinkEn (s : State) (e : Event) : (s.emit e).hostlinkEn = s.hostlinkEn := rfl
@[simp] theorem State.emit_trace (s : State) (e : Event) : (s.emit e).trace = s.trace ++ [e] := rfl
@[simp] theorem State.emit_disp (s : State) (e : Event) : (s.emit e).disp = s.disp := rfl
@[simp] theorem State.emit_cmdSrc (s : State) (e : Event) : (s.emit e).cmdSrc = s.cmdSrc := rfl
@[simp] theorem State.emit_btnConfirm (s : State) (e : Event) : (s.emit e).btnConfirm = s.btnConfirm := rfl
@[simp] theorem State.emit_fb (s : State) (e : Event) : (s.emit e).fb = s.fb := rfl
@[simp] theorem State.emit_fbLen (s : State) (e : Event) : (s.emit e).fbLen = s.fbLen := rfl
@[simp] theorem State.emit_sched (s : State) (e : Event) : (s.emit e).sched = s.sched := rfl

/-! ### `goto` -/

@[simp] theorem State.goto_cfg (s : State) (q : MicroState) : (s.goto q).cfg = s.cfg := rfl
@[simp] theorem State.goto_seq (s : State) (q : MicroState) : (s.goto q).seq = q := rfl
@[simp] theorem State.goto_phase (s : State) (q : MicroState) : (s.goto q).phase = s.phase := rfl
@[simp] theorem State.goto_bpIdx (s : State) (q : MicroState) : (s.goto q).bpIdx = s.bpIdx := rfl
@[simp] theorem State.goto_ftIdx (s : State) (q : MicroState) : (s.goto q).ftIdx = s.ftIdx := rfl
@[simp] theorem State.goto_ckIdx (s : State) (q : MicroState) : (s.goto q).ckIdx = s.ckIdx := rfl
@[simp] theorem State.goto_clr (s : State) (q : MicroState) : (s.goto q).clr = s.clr := rfl
@[simp] theorem State.goto_lat (s : State) (q : MicroState) : (s.goto q).lat = s.lat := rfl
@[simp] theorem State.goto_busReady (s : State) (q : MicroState) : (s.goto q).busReady = s.busReady := rfl
@[simp] theorem State.goto_spiBusy (s : State) (q : MicroState) : (s.goto q).spiBusy = s.spiBusy := rfl
@[simp] theorem State.goto_txOpen (s : State) (q : MicroState) : (s.goto q).txOpen = s.txOpen := rfl
@[simp] theorem State.goto_txBusy (s : State) (q : MicroState) : (s.goto q).txBusy = s.txBusy := rfl
@[simp] theorem State.goto_mode (s : State) (q : MicroState) : (s.goto q).mode = s.mode := rfl
@[simp] theorem State.goto_spiDr (s : State) (q : MicroState) : (s.goto q).spiDr = s.spiDr := rfl
@[simp] theorem State.goto_txBuf (s : State) (q : MicroState) : (s.goto q).txBuf = s.txBuf := rfl
@[simp] theorem State.goto_rst (s : State) (q : MicroState) : (s.goto q).rst = s.rst := rfl
@[simp] theorem State.goto_cs (s : State) (q : MicroState) : (s.goto q).cs = s.cs := rfl
@[simp] theorem State.goto_dc (s : State) (q : MicroState) : (s.goto q).dc = s.dc := rfl
@[simp] theorem State.goto_ind (s : State) (q : MicroState) : (s.goto q).ind = s.ind := rfl
@[simp] theorem State.goto_pwrGated (s : State) (q : MicroState) : (s.goto q).pwrGated = s.pwrGated := rfl
@[simp] theorem State.goto_irqEn (s : State) (q : MicroState) : (s.goto q).irqEn = s.irqEn := rfl
@[simp] theorem State.goto_hostlinkEn (s : State) (q : MicroState) : (s.goto q).hostlinkEn = s.hostlinkEn := rfl
@[simp] theorem State.goto_trace (s : State) (q : MicroState) : (s.goto q).trace = s.trace := rfl
@[simp] theorem State.goto_disp (s : State) (q : MicroState) : (s.goto q).disp = s.disp := rfl
@[simp] theorem State.goto_cmdSrc (s : State) (q : MicroState) : (s.goto q).cmdSrc = s.cmdSrc := rfl
@[simp] theorem State.goto_btnConfirm (s : State) (q : MicroState) : (s.goto q).btnConfirm = s.btnConfirm := rfl
@[simp] theorem State.goto_fb (s : State) (q : MicroState) : (s.goto q).fb = s.fb := rfl
@[simp] theorem State.goto_fbLen (s : State) (q : MicroState) : (s.goto q).fbLen = s.fbLen := rfl
@[simp] theorem State.goto_sched (s : State) (q : MicroState) : (s.goto q).sched = s.sched := rfl

/-! ### `driveRst` -/

@[simp] theorem State.driveRst_cfg (s : State) (v : RstLevel) : (s.driveRst v).cfg = s.cfg := rfl
@[simp] theorem State.driveRst_seq (s : State) (v : RstLevel) : (s.driveRst v).seq = s.seq := rfl
@[simp] theorem State.driveRst_phase (s : State) (v : RstLevel) : (s.driveRst v).phase = s.phase := rfl
@[simp] theorem State.driveRst_bpIdx (s : State) (v : RstLevel) : (s.driveRst v).bpIdx = s.bpIdx := rfl
@[simp] theorem State.driveRst_ftIdx (s : State) (v : RstLevel) : (s.driveRst v).ftIdx = s.ftIdx := rfl
@[simp] theorem State.driveRst_ckIdx (s : State) (v : RstLevel) : (s.driveRst v).ckIdx = s.ckIdx := rfl
@[simp] theorem State.driveRst_clr (s : State) (v : RstLevel) : (s.driveRst v).clr = s.clr := rfl
@[simp] theorem State.driveRst_lat (s : State) (v : RstLevel) : (s.driveRst v).lat = s.lat := rfl
@[simp] theorem State.driveRst_busReady (s : State) (v : RstLevel) : (s.driveRst v).busReady = s.busReady := rfl
@[simp] theorem State.driveRst_spiBusy (s : State) (v : RstLevel) : (s.driveRst v).spiBusy = s.spiBusy := rfl
@[simp] theorem State.driveRst_txOpen (s : State) (v : RstLevel) : (s.driveRst v).txOpen = s.txOpen := rfl
@[simp] theorem State.driveRst_txBusy (s : State) (v : RstLevel) : (s.driveRst v).txBusy = s.txBusy := rfl
@[simp] theorem State.driveRst_mode (s : State) (v : RstLevel) : (s.driveRst v).mode = s.mode := rfl
@[simp] theorem State.driveRst_spiDr (s : State) (v : RstLevel) : (s.driveRst v).spiDr = s.spiDr := rfl
@[simp] theorem State.driveRst_txBuf (s : State) (v : RstLevel) : (s.driveRst v).txBuf = s.txBuf := rfl
@[simp] theorem State.driveRst_rst (s : State) (v : RstLevel) : (s.driveRst v).rst = .driven v := rfl
@[simp] theorem State.driveRst_cs (s : State) (v : RstLevel) : (s.driveRst v).cs = s.cs := rfl
@[simp] theorem State.driveRst_dc (s : State) (v : RstLevel) : (s.driveRst v).dc = s.dc := rfl
@[simp] theorem State.driveRst_ind (s : State) (v : RstLevel) : (s.driveRst v).ind = s.ind := rfl
@[simp] theorem State.driveRst_pwrGated (s : State) (v : RstLevel) : (s.driveRst v).pwrGated = s.pwrGated := rfl
@[simp] theorem State.driveRst_irqEn (s : State) (v : RstLevel) : (s.driveRst v).irqEn = s.irqEn := rfl
@[simp] theorem State.driveRst_hostlinkEn (s : State) (v : RstLevel) : (s.driveRst v).hostlinkEn = s.hostlinkEn := rfl
@[simp] theorem State.driveRst_trace (s : State) (v : RstLevel) : (s.driveRst v).trace = s.trace ++ [.pin (.rst v)] := rfl
@[simp] theorem State.driveRst_disp (s : State) (v : RstLevel) : (s.driveRst v).disp = s.disp := rfl
@[simp] theorem State.driveRst_cmdSrc (s : State) (v : RstLevel) : (s.driveRst v).cmdSrc = s.cmdSrc := rfl
@[simp] theorem State.driveRst_btnConfirm (s : State) (v : RstLevel) : (s.driveRst v).btnConfirm = s.btnConfirm := rfl
@[simp] theorem State.driveRst_fb (s : State) (v : RstLevel) : (s.driveRst v).fb = s.fb := rfl
@[simp] theorem State.driveRst_fbLen (s : State) (v : RstLevel) : (s.driveRst v).fbLen = s.fbLen := rfl
@[simp] theorem State.driveRst_sched (s : State) (v : RstLevel) : (s.driveRst v).sched = s.sched := rfl

/-! ### `driveCs` -/

@[simp] theorem State.driveCs_cfg (s : State) (v : CsLevel) : (s.driveCs v).cfg = s.cfg := rfl
@[simp] theorem State.driveCs_seq (s : State) (v : CsLevel) : (s.driveCs v).seq = s.seq := rfl
@[simp] theorem State.driveCs_phase (s : State) (v : CsLevel) : (s.driveCs v).phase = s.phase := rfl
@[simp] theorem State.driveCs_bpIdx (s : State) (v : CsLevel) : (s.driveCs v).bpIdx = s.bpIdx := rfl
@[simp] theorem State.driveCs_ftIdx (s : State) (v : CsLevel) : (s.driveCs v).ftIdx = s.ftIdx := rfl
@[simp] theorem State.driveCs_ckIdx (s : State) (v : CsLevel) : (s.driveCs v).ckIdx = s.ckIdx := rfl
@[simp] theorem State.driveCs_clr (s : State) (v : CsLevel) : (s.driveCs v).clr = s.clr := rfl
@[simp] theorem State.driveCs_lat (s : State) (v : CsLevel) : (s.driveCs v).lat = s.lat := rfl
@[simp] theorem State.driveCs_busReady (s : State) (v : CsLevel) : (s.driveCs v).busReady = s.busReady := rfl
@[simp] theorem State.driveCs_spiBusy (s : State) (v : CsLevel) : (s.driveCs v).spiBusy = s.spiBusy := rfl
@[simp] theorem State.driveCs_txOpen (s : State) (v : CsLevel) : (s.driveCs v).txOpen = s.txOpen := rfl
@[simp] theorem State.driveCs_txBusy (s : State) (v : CsLevel) : (s.driveCs v).txBusy = s.txBusy := rfl
@[simp] theorem State.driveCs_mode (s : State) (v : CsLevel) : (s.driveCs v).mode = s.mode := rfl
@[simp] theorem State.driveCs_spiDr (s : State) (v : CsLevel) : (s.driveCs v).spiDr = s.spiDr := rfl
@[simp] theorem State.driveCs_txBuf (s : State) (v : CsLevel) : (s.driveCs v).txBuf = s.txBuf := rfl
@[simp] theorem State.driveCs_rst (s : State) (v : CsLevel) : (s.driveCs v).rst = s.rst := rfl
@[simp] theorem State.driveCs_cs (s : State) (v : CsLevel) : (s.driveCs v).cs = .driven v := rfl
@[simp] theorem State.driveCs_dc (s : State) (v : CsLevel) : (s.driveCs v).dc = s.dc := rfl
@[simp] theorem State.driveCs_ind (s : State) (v : CsLevel) : (s.driveCs v).ind = s.ind := rfl
@[simp] theorem State.driveCs_pwrGated (s : State) (v : CsLevel) : (s.driveCs v).pwrGated = s.pwrGated := rfl
@[simp] theorem State.driveCs_irqEn (s : State) (v : CsLevel) : (s.driveCs v).irqEn = s.irqEn := rfl
@[simp] theorem State.driveCs_hostlinkEn (s : State) (v : CsLevel) : (s.driveCs v).hostlinkEn = s.hostlinkEn := rfl
@[simp] theorem State.driveCs_trace (s : State) (v : CsLevel) : (s.driveCs v).trace = s.trace ++ [.pin (.cs v)] := rfl
@[simp] theorem State.driveCs_disp (s : State) (v : CsLevel) : (s.driveCs v).disp = s.disp := rfl
@[simp] theorem State.driveCs_cmdSrc (s : State) (v : CsLevel) : (s.driveCs v).cmdSrc = s.cmdSrc := rfl
@[simp] theorem State.driveCs_btnConfirm (s : State) (v : CsLevel) : (s.driveCs v).btnConfirm = s.btnConfirm := rfl
@[simp] theorem State.driveCs_fb (s : State) (v : CsLevel) : (s.driveCs v).fb = s.fb := rfl
@[simp] theorem State.driveCs_fbLen (s : State) (v : CsLevel) : (s.driveCs v).fbLen = s.fbLen := rfl
@[simp] theorem State.driveCs_sched (s : State) (v : CsLevel) : (s.driveCs v).sched = s.sched := rfl

/-! ### `enterMode`, on each transport -/

@[simp] theorem State.enterMode_cfg (s : State) (m : LinkMode) : (s.enterMode m).cfg = s.cfg := by
  unfold State.enterMode; split <;> rfl
@[simp] theorem State.enterMode_seq (s : State) (m : LinkMode) : (s.enterMode m).seq = s.seq := by
  unfold State.enterMode; split <;> rfl
@[simp] theorem State.enterMode_phase (s : State) (m : LinkMode) : (s.enterMode m).phase = s.phase := by
  unfold State.enterMode; split <;> rfl
@[simp] theorem State.enterMode_bpIdx (s : State) (m : LinkMode) : (s.enterMode m).bpIdx = s.bpIdx := by
  unfold State.enterMode; split <;> rfl
@[simp] theorem State.enterMode_ftIdx (s : State) (m : LinkMode) : (s.enterMode m).ftIdx = s.ftIdx := by
  unfold State.enterMode; split <;> rfl
@[simp] theorem State.enterMode_ckIdx (s : State) (m : LinkMode) : (s.enterMode m).ckIdx = s.ckIdx := by
  unfold State.enterMode; split <;> rfl
@[simp] theorem State.enterMode_clr (s : State) (m : LinkMode) : (s.enterMode m).clr = s.clr := by
  unfold State.enterMode; split <;> rfl
@[simp] theorem State.enterMode_lat (s : State) (m : LinkMode) : (s.enterMode m).lat = s.lat := by
  unfold State.enterMode; split <;> rfl
@[simp] theorem State.enterMode_busReady (s : State) (m : LinkMode) : (s.enterMode m).busReady = s.busReady := by
  unfold State.enterMode; split <;> rfl
@[simp] theorem State.enterMode_spiBusy (s : State) (m : LinkMode) : (s.enterMode m).spiBusy = s.spiBusy := by
  unfold State.enterMode; split <;> rfl
@[simp] theorem State.enterMode_txOpen (s : State) (m : LinkMode) : (s.enterMode m).txOpen = s.txOpen := by
  unfold State.enterMode; split <;> rfl
@[simp] theorem State.enterMode_txBusy (s : State) (m : LinkMode) : (s.enterMode m).txBusy = s.txBusy := by
  unfold State.enterMode; split <;> rfl
@[simp] theorem State.enterMode_mode (s : State) (m : LinkMode) : (s.enterMode m).mode = .holds m := by
  unfold State.enterMode; split <;> rfl
@[simp] theorem State.enterMode_spiDr (s : State) (m : LinkMode) : (s.enterMode m).spiDr = s.spiDr := by
  unfold State.enterMode; split <;> rfl
@[simp] theorem State.enterMode_txBuf (s : State) (m : LinkMode) : (s.enterMode m).txBuf = s.txBuf := by
  unfold State.enterMode; split <;> rfl
@[simp] theorem State.enterMode_rst (s : State) (m : LinkMode) : (s.enterMode m).rst = s.rst := by
  unfold State.enterMode; split <;> rfl
@[simp] theorem State.enterMode_cs (s : State) (m : LinkMode) : (s.enterMode m).cs = s.cs := by
  unfold State.enterMode; split <;> rfl
@[simp] theorem State.enterMode_ind (s : State) (m : LinkMode) : (s.enterMode m).ind = s.ind := by
  unfold State.enterMode; split <;> rfl
@[simp] theorem State.enterMode_pwrGated (s : State) (m : LinkMode) : (s.enterMode m).pwrGated = s.pwrGated := by
  unfold State.enterMode; split <;> rfl
@[simp] theorem State.enterMode_irqEn (s : State) (m : LinkMode) : (s.enterMode m).irqEn = s.irqEn := by
  unfold State.enterMode; split <;> rfl
@[simp] theorem State.enterMode_hostlinkEn (s : State) (m : LinkMode) : (s.enterMode m).hostlinkEn = s.hostlinkEn := by
  unfold State.enterMode; split <;> rfl
@[simp] theorem State.enterMode_disp (s : State) (m : LinkMode) : (s.enterMode m).disp = s.disp := by
  unfold State.enterMode; split <;> rfl
@[simp] theorem State.enterMode_cmdSrc (s : State) (m : LinkMode) : (s.enterMode m).cmdSrc = s.cmdSrc := by
  unfold State.enterMode; split <;> rfl
@[simp] theorem State.enterMode_btnConfirm (s : State) (m : LinkMode) : (s.enterMode m).btnConfirm = s.btnConfirm := by
  unfold State.enterMode; split <;> rfl
@[simp] theorem State.enterMode_fb (s : State) (m : LinkMode) : (s.enterMode m).fb = s.fb := by
  unfold State.enterMode; split <;> rfl
@[simp] theorem State.enterMode_fbLen (s : State) (m : LinkMode) : (s.enterMode m).fbLen = s.fbLen := by
  unfold State.enterMode; split <;> rfl
@[simp] theorem State.enterMode_sched (s : State) (m : LinkMode) : (s.enterMode m).sched = s.sched := by
  unfold State.enterMode; split <;> rfl

theorem State.enterMode_serial (s : State) (m : LinkMode) (h : s.cfg.transport = .serial) :
    s.enterMode m = { s with dc := .driven m, mode := .holds m, trace := s.trace ++ [.pin (.dc m)] } := by
  simp [State.enterMode, h]

theorem State.enterMode_batched (s : State) (m : LinkMode) (h : s.cfg.transport = .batched) :
    s.enterMode m = { s with mode := .holds m } := by
  simp [State.enterMode, h]

end Sys2Proof.Machine
end

