-- ==== Sys2Proof/Laws/Ops.lean ====
section
/-! SUPPORT. What each shared operation can do, said once: if it answers a next state, then what that state is. -/

namespace Sys2Proof.Machine

@[simp] theorem Micro.andThen_go (s : State) (k : State → Micro) : (Micro.go s).andThen k = k s := rfl
@[simp] theorem Micro.andThen_wait (k : State → Micro) : Micro.wait.andThen k = .wait := rfl
@[simp] theorem Micro.andThen_refuse (r : Refusal) (k : State → Micro) : (Micro.refuse r).andThen k = .refuse r := rfl

theorem Micro.andThen_eq_go {m : Micro} {k : State → Micro} {u : State} :
    m.andThen k = .go u ↔ ∃ t, m = .go t ∧ k t = .go u := by
  cases m <;> simp

@[simp] theorem Micro.turn_go (s t : State) : (Micro.go t).turn s = .next t := rfl
@[simp] theorem Micro.turn_wait (s : State) : Micro.wait.turn s = .next s := rfl
@[simp] theorem Micro.turn_refuse (s : State) (r : Refusal) : (Micro.refuse r).turn s = .refused r := rfl

/-- A turn of the block answers a next state by a micro-step, or by holding. -/
theorem Micro.turn_eq_next {s t : State} {m : Micro} :
    m.turn s = .next t ↔ m = .go t ∨ (m = .wait ∧ t = s) := by
  cases m <;> simp [Micro.turn, eq_comm]

@[simp] theorem await_true (k : Micro) : await true k = k := rfl
@[simp] theorem await_false (k : Micro) : await false k = .wait := rfl

theorem await_eq_go {c : Bool} {k : Micro} {u : State} : await c k = .go u ↔ c = true ∧ k = .go u := by
  cases c <;> simp

theorem acceptReady_ready {s : State} {o : Out} (h : s.seq = .ready) : acceptReady s o = o := by simp [acceptReady, h]

theorem acceptReady_eq_next {s t : State} {o : Out} :
    acceptReady s o = .next t ↔ s.seq = .ready ∧ o = .next t := by
  unfold acceptReady
  split
  · simp [*]
  · split <;> simp [*]

theorem fbRead_eq_go {s u : State} {i : Nat} {k : Byte → State → Micro} :
    fbRead s i k = .go u ↔
      i < s.cfg.frameLen ∧ i < s.fbLen ∧ k (s.fb.read i) (s.emit (.fbRead i (s.fb.read i))) = .go u := by
  unfold fbRead
  split
  · rename_i h
    simp [h]
  · rename_i h
    simp only [reduceCtorEq, false_iff]
    exact fun h' => h ⟨h'.1, h'.2.1⟩

theorem nextPixel_clear {s : State} {k : Byte → State → Micro} (h : s.clr = true) : nextPixel s k = k 0x00#8 s := by
  simp [nextPixel, h]

theorem nextPixel_read {s : State} {k : Byte → State → Micro} (h : s.clr = false) :
    nextPixel s k = fbRead s s.ftIdx k := by
  simp [nextPixel, h]

theorem xferStart_eq_go {s t : State} {b : Byte} :
    xferStart b s = .go t ↔ s.busReady = true ∧ s.spiBusy = false ∧ { s with spiDr := b, spiBusy := true } = t := by
  unfold xferStart
  cases s.busReady <;> cases s.spiBusy <;> simp

theorem txBegin_eq_go {s t : State} :
    txBegin s = .go t ↔
      s.busReady = true ∧ s.txOpen = false ∧ s.txBusy = false ∧ { s with txBuf := [], txOpen := true } = t := by
  unfold txBegin
  cases s.busReady <;> cases s.txOpen <;> cases s.txBusy <;> simp

theorem txWrite_eq_go {s t : State} {b : Byte} :
    txWrite b s = .go t ↔
      s.txOpen = true ∧ s.txBuf.length < s.cfg.txbufCap ∧ { s with txBuf := s.txBuf ++ [b] } = t := by
  unfold txWrite
  by_cases h : s.txBuf.length < s.cfg.txbufCap <;> cases s.txOpen <;> simp [h]

theorem txEndStart_eq_go {s t : State} :
    txEndStart s = .go t ↔ s.txOpen = true ∧ { s with txOpen := false, txBusy := true } = t := by
  unfold txEndStart
  cases s.txOpen <;> simp

theorem serialDone_cases (s : State) :
    (s.spiBusy = true ∧
        serialDone s = { s with spiBusy := false, trace := s.trace ++ [.serial s.spiDr] }) ∨
      (s.spiBusy = false ∧ serialDone s = s) := by
  unfold serialDone
  split <;> simp_all

theorem batchDone_cases (s : State) :
    (s.txBusy = true ∧
        batchDone s =
          { s with txBusy := false, txBuf := [], trace := s.trace ++ [.batch s.cfg.periphAddr s.txBuf] }) ∨
      (s.txBusy = false ∧ batchDone s = s) := by
  unfold batchDone
  split <;> simp_all

theorem wake_cases (s : State) :
    (s.seq = .iSleep ∧ s.irqEn = true ∧
        wake s = { s with trace := s.trace ++ [.irq, .wake], seq := .ready, phase := .running }) ∨
      (¬(s.seq = .iSleep ∧ s.irqEn = true) ∧ wake s = s) := by
  unfold wake
  split <;> simp_all

theorem hostFbWrite_eq_next {i : Nat} {v : Byte} {s t : State} :
    hostFbWrite i v s = .next t ↔ s.painting = false ∧ i < s.fbLen ∧ { s with fb := s.fb.write i v } = t := by
  unfold hostFbWrite
  by_cases h : i < s.fbLen <;> cases s.painting <;> simp [h]

theorem hostFbSupply_eq_next {bs : List Byte} {s t : State} :
    hostFbSupply bs s = .next t ↔
      s.painting = false ∧ { s with fb := Memory.ofBytes bs, fbLen := bs.length } = t := by
  unfold hostFbSupply
  cases s.painting <;> simp

theorem platformSet_eq_next {i h : Bool} {s t : State} :
    platformSet i h s = .next t ↔ s.exiting = false ∧ { s with irqEn := i, hostlinkEn := h } = t := by
  unfold platformSet
  cases s.exiting <;> simp

theorem presentWord_eq_next {run : Instr → State → Out} {w : OpWord} {s t : State} :
    presentWord run w s = .next t ↔ ∃ i, decodeFor s.cfg w = .ok i ∧ run i s = .next t := by
  unfold presentWord
  split <;> simp_all

/-- Everything a step that answers a next state can be: a turn of the block, or one move taken off the schedule. -/
theorem step_cases {s t : State} (h : step s = .next t) :
    (s.sched = [] ∧ microStep s = .next t) ∨
      ∃ m rest, s.sched = m :: rest ∧ takeMove exec m { s with sched := rest } = .next t := by
  unfold step takeTurn at h
  split at h
  · exact .inl ⟨‹_›, h⟩
  · exact .inr ⟨_, _, ‹_›, h⟩

theorem step_nil {s : State} (h : s.sched = []) : step s = microStep s := by simp [step, takeTurn, h]

theorem step_cons {s : State} {m : Move} {rest : List Move} (h : s.sched = m :: rest) :
    step s = takeMove exec m { s with sched := rest } := by
  simp [step, takeTurn, h]

end Sys2Proof.Machine
end

