-- ==== Sys2Proof/Laws/PerInstr.lean ====
section
/-! SUPPORT. Statements made once for each operation: the word of an operation selects the row of the opcode table that
bears its mnemonic (R79, R81). -/

namespace Sys2Proof.Laws.OpcodeRow

/-- The row of the opcode table that bears the operation's mnemonic is selected by its word. -/
def Statement (i : Instr) : Prop := ∃ r, r ∈ opTable ∧ r.mnemonic = i.mnemonic ∧ r.selects (encode i) = true

/-- A number below 16 is one of sixteen. -/
theorem below_sixteen {i : Nat} (h : i < 16) :
    i = 0 ∨ i = 1 ∨ i = 2 ∨ i = 3 ∨ i = 4 ∨ i = 5 ∨ i = 6 ∨ i = 7 ∨ i = 8 ∨ i = 9 ∨ i = 10 ∨ i = 11 ∨ i = 12 ∨
      i = 13 ∨ i = 14 ∨ i = 15 := by omega

theorem boot : Statement .boot := ⟨⟨"BOOT", .z, 0x1000#16⟩, by simp [opTable], rfl, by decide⟩
theorem paint (b : Bool) : Statement (.paint b) :=
  ⟨⟨"PAINT", .f, 0x2000#16⟩, by simp [opTable], rfl, by cases b <;> decide⟩
theorem setpwr (b : Bool) : Statement (.setpwr b) :=
  ⟨⟨"SETPWR", .f, 0x3000#16⟩, by simp [opTable], rfl, by cases b <;> decide⟩
theorem setinv (b : Bool) : Statement (.setinv b) :=
  ⟨⟨"SETINV", .f, 0x4000#16⟩, by simp [opTable], rfl, by cases b <;> decide⟩
theorem setallon (b : Bool) : Statement (.setallon b) :=
  ⟨⟨"SETALLON", .f, 0x5000#16⟩, by simp [opTable], rfl, by cases b <;> decide⟩
theorem setfliph (b : Bool) : Statement (.setfliph b) :=
  ⟨⟨"SETFLIPH", .f, 0x6000#16⟩, by simp [opTable], rfl, by cases b <;> decide⟩
theorem setflipv (b : Bool) : Statement (.setflipv b) :=
  ⟨⟨"SETFLIPV", .f, 0x7000#16⟩, by simp [opTable], rfl, by cases b <;> decide⟩
theorem idle : Statement .idle := ⟨⟨"IDLE", .z, 0x8000#16⟩, by simp [opTable], rfl, by decide⟩
theorem setind (ch : BitVec 4) (v : Byte) : Statement (.setind ch v) :=
  ⟨⟨"SETIND", .c, 0x9000#16⟩, by simp [opTable], rfl, by
    simp only [OpRow.selects, WordFormat.mask, encode, packWord, beq_iff_eq]
    apply BitVec.eq_of_getLsbD_eq
    intro i hi
    rcases below_sixteen hi with h | h | h | h | h | h | h | h | h | h | h | h | h | h | h | h <;> subst h <;>
      simp only [BitVec.getLsbD_and, BitVec.getLsbD_append] <;> simp⟩
theorem exithalt : Statement .exithalt := ⟨⟨"EXITHALT", .z, 0xA000#16⟩, by simp [opTable], rfl, by decide⟩
theorem sendcmd (k : Byte) : Statement (.sendcmd k) :=
  ⟨⟨"SENDCMD", .b, 0xB000#16⟩, by simp [opTable], rfl, by
    simp only [OpRow.selects, WordFormat.mask, encode, packWord, beq_iff_eq]
    apply BitVec.eq_of_getLsbD_eq
    intro i hi
    rcases below_sixteen hi with h | h | h | h | h | h | h | h | h | h | h | h | h | h | h | h <;> subst h <;>
      simp only [BitVec.getLsbD_and, BitVec.getLsbD_append] <;> simp⟩
theorem entercmd : Statement .entercmd := ⟨⟨"ENTERCMD", .z, 0xC000#16⟩, by simp [opTable], rfl, by decide⟩
theorem enterdata : Statement .enterdata := ⟨⟨"ENTERDATA", .z, 0xD000#16⟩, by simp [opTable], rfl, by decide⟩

end Sys2Proof.Laws.OpcodeRow
end

