-- ==== Sys2Proof/Tests/Slice0.lean ====
section
/-! SUPPORT. Tests: the checks refuse an ill-formed term each; words written out bit by bit from R79 decode to their
operations; one-step tests whose expected results are the spec's own vectors (95_test_vectors.md, the vector named beside
each); and a witness that meets the hypotheses of every statement that has some. -/

namespace Sys2Proof.Tests

open Sys2Proof Sys2Proof.Machine

/-! ### Helpers -/

/-- A part of the next state, if there is one. -/
def after {α : Type} (o : Out) (f : State → α) : Option α :=
  match o with
  | .next t => some (f t)
  | .fault _ => none
  | .refused _ => none

/-- The refusal, if there is one. -/
def refusalOf (o : Out) : Option Refusal :=
  match o with
  | .next _ => none
  | .fault _ => none
  | .refused r => some r

/-- The next state, or `d`. -/
def nextOr (d : State) (o : Out) : State :=
  match o with
  | .next t => t
  | .fault _ => d
  | .refused _ => d

theorem eq_nextOr {o : Out} (d : State) (h : completes o = true) : o = .next (nextOr d o) := by
  cases o with
  | next t => rfl
  | fault r => cases r
  | refused r => simp [completes] at h

/-- CfgT of 95_test_vectors.md 1.1 on the given variants. -/
def cfgOf (t : Transport) (i : Indicator) : Cfg := { cfgT with transport := t, indicator := i }

/-- A small configuration: two frame bytes, one boot byte, chunks of one byte. -/
def tiny (t : Transport) : Cfg :=
  { cfgT with transport := t, height := 2, bootProgram := [0xAF#8], chunkSize := 1, txbufCap := 2 }

/-- The test frame buffer FB_T. -/
def fbT : List Byte := [0x11#8, 0x22#8, 0x33#8, 0x44#8, 0x55#8, 0x66#8, 0x77#8, 0x88#8]

/-- The platform with interrupts and the host link enabled. -/
def plat : Platform := { btnConfirm := false, irqEn := true, hostlinkEn := true }

/-- After reset. -/
def cold (c : Cfg) : State := State.resetWith c plat

/-- The booted state, with FB_T in the frame buffer and an empty trace. -/
def ready (c : Cfg) : State :=
  { bootDone (cold c) [] with trace := [], fb := Memory.ofBytes fbT, fbLen := 8 }

def readyS : State := ready (cfgOf .serial .pwm)
def readyB : State := ready (cfgOf .batched .pwm)

/-- One step that presents a word. -/
def presented (w : OpWord) (s : State) : Out := step { s with sched := [.present w] }

/-! ### Each check refuses an ill-formed term -/

theorem test_wf_channel_too_high : Instr.wf cfgT (.setind 3#4 0#8) = false := by decide
theorem test_wf_channel_highest : Instr.wf cfgT (.setind 2#4 0#8) = true := by decide
theorem test_cfg_wf : (cfgOf .serial .pwm).wf = true ∧ (cfgOf .batched .onoff).wf = true := by decide
theorem test_cfg_width_zero : Cfg.wf { cfgT with width := 0 } = false := by decide
theorem test_cfg_height_zero : Cfg.wf { cfgT with height := 0 } = false := by decide
theorem test_cfg_not_whole_bytes : Cfg.wf { cfgT with width := 3, height := 3 } = false := by decide
theorem test_cfg_cmd_same_bytes :
    ∀ same : OnOffBytes, same = { on := 0xAE#8, off := 0xAE#8 } →
      Cfg.wf { cfgT with cmd := { cfgT.cmd with pwr := same } } = false ∧
      Cfg.wf { cfgT with cmd := { cfgT.cmd with inv := same } } = false ∧
      Cfg.wf { cfgT with cmd := { cfgT.cmd with allon := same } } = false ∧
      Cfg.wf { cfgT with cmd := { cfgT.cmd with fliph := same } } = false ∧
      Cfg.wf { cfgT with cmd := { cfgT.cmd with flipv := same } } = false := by
  rintro _ rfl
  decide
theorem test_cfg_chunk_zero : Cfg.wf { cfgOf .batched .pwm with chunkSize := 0 } = false := by decide
theorem test_cfg_chunk_no_divisor : Cfg.wf { cfgOf .batched .pwm with chunkSize := 3 } = false := by decide
theorem test_cfg_chunk_over_cap : Cfg.wf { cfgOf .batched .pwm with txbufCap := 4 } = false := by decide
theorem test_cfg_cap_one : Cfg.batchOk { cfgOf .batched .pwm with chunkSize := 0, txbufCap := 1 } = false := by decide
theorem test_cfg_chunk_unread_on_serial : Cfg.wf { cfgOf .serial .pwm with chunkSize := 3 } = true := by decide
theorem test_cfg_no_channel : Cfg.wf { cfgT with nChannels := 0 } = false := by decide
theorem test_cfg_seventeen_channels : Cfg.wf { cfgT with nChannels := 17 } = false := by decide
theorem test_cfg_safe_channel : Cfg.wf { cfgT with safeCh := 3 } = false := by decide
theorem test_cfg_hold_short : Cfg.wf { cfgT with tRstHoldMs := 4 } = false := by decide
theorem test_cfg_settle_short : Cfg.wf { cfgT with tRstSettleMs := 4 } = false := by decide
theorem test_cfg_gates_domain_in_use :
    Cfg.wf { cfgT with unusedDomains := [.transport] } = false ∧
    Cfg.wf { cfgT with unusedDomains := [.indicator] } = false ∧
    Cfg.wf { cfgT with unusedDomains := [.wake 0] } = false := by decide
theorem test_cfg_domain_twice : Cfg.wf { cfgT with unusedDomains := [.other 0, .other 0] } = false := by decide

/-! ### Decoding: words written out from R79, field by field (opcode, sel, imm8) -/

theorem test_decode_boot : decode 0b0001000000000000#16 = .ok .boot := by decide
theorem test_decode_paint :
    decode 0b0010000000000000#16 = .ok (.paint false) ∧ decode 0b0010000000000001#16 = .ok (.paint true) := by decide
theorem test_decode_setpwr :
    decode 0b0011000000000000#16 = .ok (.setpwr false) ∧ decode 0b0011000000000001#16 = .ok (.setpwr true) := by decide
theorem test_decode_setinv :
    decode 0b0100000000000000#16 = .ok (.setinv false) ∧ decode 0b0100000000000001#16 = .ok (.setinv true) := by decide
theorem test_decode_setallon :
    decode 0b0101000000000000#16 = .ok (.setallon false) ∧
    decode 0b0101000000000001#16 = .ok (.setallon true) := by decide
theorem test_decode_setfliph :
    decode 0b0110000000000000#16 = .ok (.setfliph false) ∧
    decode 0b0110000000000001#16 = .ok (.setfliph true) := by decide
theorem test_decode_setflipv :
    decode 0b0111000000000000#16 = .ok (.setflipv false) ∧
    decode 0b0111000000000001#16 = .ok (.setflipv true) := by decide
theorem test_decode_idle : decode 0b1000000000000000#16 = .ok .idle := by decide
theorem test_decode_setind :
    decode 0b1001001010000000#16 = .ok (.setind 0b0010#4 0b10000000#8) ∧
    decode 0b1001000000000000#16 = .ok (.setind 0b0000#4 0b00000000#8) ∧
    decode 0b1001001011111111#16 = .ok (.setind 0b0010#4 0b11111111#8) := by decide
theorem test_decode_exithalt : decode 0b1010000000000000#16 = .ok .exithalt := by decide
theorem test_decode_sendcmd :
    decode 0b1011000010100111#16 = .ok (.sendcmd 0b10100111#8) ∧
    decode 0b1011000000000000#16 = .ok (.sendcmd 0x00#8) ∧
    decode 0b1011000011111111#16 = .ok (.sendcmd 0xFF#8) := by decide
theorem test_decode_entercmd : decode 0b1100000000000000#16 = .ok .entercmd := by decide
theorem test_decode_enterdata : decode 0b1101000000000000#16 = .ok .enterdata := by decide

/-- E20 to E28: reserved words. -/
theorem test_decode_reserved :
    [0x0000#16, 0xFFFF#16, 0xE000#16, 0xF123#16].map decode = List.replicate 4 (.reserved .opcode) ∧
    [0x1100#16, 0x2100#16, 0x5F00#16, 0x7101#16, 0xD100#16, 0xB1A7#16].map decode =
      List.replicate 6 (.reserved .sel) ∧
    [0x1001#16, 0x2002#16, 0x2003#16, 0x20FF#16, 0x3003#16, 0x4080#16, 0x6002#16, 0x8001#16, 0xA0FF#16,
      0xC001#16].map decode = List.replicate 10 (.reserved .imm) := by decide

/-- E29: the channel check depends on the configuration. -/
theorem test_decode_channel :
    decodeFor cfgT 0x9300#16 = .reserved .channel ∧ decodeFor cfgT 0x9FFF#16 = .reserved .channel ∧
    decodeFor { cfgT with nChannels := 16 } 0x9FFF#16 = .ok (.setind 15#4 0xFF#8) := by decide

theorem test_encode :
    encode (.setind 2#4 0x80#8) = 0x9280#16 ∧ encode (.sendcmd 0xA7#8) = 0xB0A7#16 ∧
    encode (.paint true) = 0x2001#16 ∧ encode .enterdata = 0xD000#16 := by decide

theorem test_decodeTableWord :
    decodeTableWord 16 0x9280 = some (.setind 2#4 0x80#8) ∧ decodeTableWord 16 0x1001 = none := by decide

/-- R87, R88: the spec's example lines. -/
theorem test_assembler :
    ["BOOT", "PAINT 0", "PAINT 1", "SETINV 1", "SETIND 2, 0x80", "SENDCMD 0xA7", "IDLE", "EXITHALT",
      "DISPLAYOFF", "DISPLAYON", "CLEAR  ; 0x2001", "DISPLAY", "INVERT true"].map (fun l => assembleLine l.toList) =
    [some .boot, some (.paint false), some (.paint true), some (.setinv true), some (.setind 2#4 0x80#8),
      some (.sendcmd 0xA7#8), some .idle, some .exithalt, some (.setpwr false), some (.setpwr true),
      some (.paint true), some (.paint false), some (.setinv true)] := by decide

theorem test_assembler_refuses :
    ["", "; BOOT", "PAINT", "SETIND 16, 0x00", "SENDCMD 1", "BOOT 0"].map (fun l => assembleLine l.toList) =
    List.replicate 6 none := by decide

/-- R56: most significant bit first; 0xA7 is 1010 0111. -/
theorem test_serial_bits : serialBits 0xA7#8 = [true, false, true, false, false, true, true, true] := by decide

/-! ### One step of each operation, expected results from 95_test_vectors.md -/

theorem test_boot_starts : after (presented 0x1000#16 (cold cfgT)) (·.seq) = some .b1Pins := by decide
theorem test_boot_second_refused : refusalOf (presented 0x1000#16 readyS) = some .secondBoot := by decide
/-- B3, B4: the safe-mode check with the button held. -/
theorem test_boot_safe_mode :
    after (step { cold (cfgOf .serial .onoff) with seq := .b1Safe, btnConfirm := true })
      (fun t => (t.seq, t.phase, t.ind, t.trace)) =
    some (.hSafe, .safeHalt, [.onoff true, .onoff false, .onoff false], [.button true, .ind 0 (.onoff true)]) := by
  decide
/-- B1: a boot byte is started and the index moves on. -/
theorem test_boot_byte :
    after (step { cold cfgT with seq := .b5Prog, busReady := true, bpIdx := 1 })
      (fun t => (t.spiDr, t.spiBusy, t.bpIdx, t.seq)) = some (0xF0#8, true, 2, .b5Prog) := by decide
/-- B2: on the batched link it is a batch of its own. -/
theorem test_boot_batch :
    after (step { cold (cfgOf .batched .pwm) with seq := .b5Prog, busReady := true, bpIdx := 2 })
      (fun t => (t.txBuf, t.txOpen, t.txBusy, t.bpIdx)) = some ([0x80#8, 0xAF#8], false, true, 3) := by decide
/-- F1: the first fetch, and F10's last start. -/
theorem test_paint_fetch :
    after (step { readyS with seq := .pFetch, clr := false, ftIdx := 0 }) (fun t => (t.lat, t.trace, t.seq)) =
    some (0x11#8, [.fbRead 0 0x11#8], .pSend) := by decide
theorem test_paint_last_start :
    after (step { readyS with seq := .pSend, lat := 0x88#8, ftIdx := 7 })
      (fun t => (t.spiDr, t.spiBusy, t.ftIdx, t.seq)) = some (0x88#8, true, 8, .pDrain) := by decide
/-- F4: the clear path fills with zero and reads nothing. -/
theorem test_clear_fill :
    after (step { readyB with seq := .qFill, clr := true, txOpen := true, txBuf := [0x40#8], ckIdx := 0 })
      (fun t => (t.txBuf, t.trace, t.ftIdx, t.ckIdx)) = some ([0x40#8, 0x00#8], [], 1, 1) := by decide
theorem test_paint_refused_short :
    refusalOf (presented 0x2000#16 { readyS with fbLen := 7 }) = some .fbTooShort := by decide
/-- M1, M4, M5, M8, M9: the byte each mode operation sends. -/
theorem test_setpwr : after (presented 0x3000#16 readyS) (fun t => (t.lat, t.seq)) = some (0xAE#8, .cEnter) := by decide
theorem test_setinv : after (presented 0x4001#16 readyS) (fun t => (t.lat, t.seq)) = some (0xA7#8, .cEnter) := by decide
theorem test_setallon :
    after (presented 0x5000#16 readyS) (fun t => (t.lat, t.seq)) = some (0xA4#8, .cEnter) := by decide
theorem test_setfliph :
    after (presented 0x6001#16 readyS) (fun t => (t.lat, t.seq)) = some (0xA0#8, .cEnter) := by decide
theorem test_setflipv :
    after (presented 0x7000#16 readyS) (fun t => (t.lat, t.seq)) = some (0xC8#8, .cEnter) := by decide
/-- M4's end: data mode and the ghost flag. -/
theorem test_setinv_restores_data :
    after (step { readyS with seq := .cRestore, lat := 0xA7#8, cmdSrc := .flag .inv true, mode := .holds .command })
      (fun t => (t.seq, t.mode, t.dc, t.disp.inverted)) =
    some (.ready, .holds .data, .driven .data, some true) := by decide
/-- W1, W2: the sleep and its end. -/
theorem test_idle :
    after (presented 0x8000#16 readyS) (fun t => (t.seq, t.phase, t.trace)) = some (.iSleep, .idle, [.sleep]) := by
  decide
theorem test_idle_wakes :
    after (step { readyS with seq := .iSleep, phase := .idle, sched := [.irq] })
      (fun t => (t.seq, t.phase, t.trace)) = some (.ready, .running, [.irq, .wake]) := by decide
/-- W5 and W12. -/
theorem test_setind_pwm :
    after (presented 0x9280#16 readyS) (fun t => (t.ind, t.trace)) =
    some ([.pwm 0x00#8, .pwm 0x00#8, .pwm 0x80#8], [.ind 2 (.pwm 0x80#8)]) := by decide
theorem test_setind_onoff :
    after (presented 0x91FF#16 (ready (cfgOf .serial .onoff))) (fun t => (t.ind, t.trace)) =
    some ([.onoff false, .onoff true, .onoff false], [.ind 1 (.onoff true)]) := by decide
/-- W14, W15: accepted in both ready states; the last micro-step. -/
theorem test_exithalt :
    after (presented 0xA000#16 readyS) (·.seq) = some .xIrq ∧
    after (presented 0xA000#16 (cold cfgT)) (fun t => (t.seq, t.phase)) = some (.xIrq, .boot) := by decide
theorem test_exithalt_handoff :
    after (step { readyS with seq := .xHandoff }) (fun t => (t.seq, t.phase, t.trace)) =
    some (.hLoader, .loaderHalt, [.handoff]) := by decide
/-- P3's first micro-steps; P7's batch. -/
theorem test_sendcmd :
    after (presented 0xB0A7#16 readyS) (fun t => (t.lat, t.seq, t.cmdSrc)) = some (0xA7#8, .cEnter, .raw) := by decide
theorem test_sendcmd_batch :
    after (step { readyB with seq := .cEnter, lat := 0x40#8 }) (fun t => (t.txBuf, t.mode, t.seq)) =
    some ([0x80#8, 0x40#8], .holds .command, .cSend) := by decide
/-- P1, P11. -/
theorem test_entercmd :
    after (presented 0xC000#16 readyS) (fun t => (t.mode, t.dc, t.trace)) =
    some (.holds .command, .driven .command, [.pin (.dc .command)]) := by decide
theorem test_entercmd_batched :
    after (presented 0xC000#16 readyB) (fun t => (t.mode, t.dc, t.trace)) =
    some (.holds .command, .driven .data, []) := by decide
/-- P10. -/
theorem test_enterdata :
    after (presented 0xD000#16 readyS) (fun t => (t.mode, t.dc, t.trace)) =
    some (.holds .data, .driven .data, [.pin (.dc .data)]) := by decide

/-- A3, A8: the two completions. -/
theorem test_serial_done :
    after (step { readyS with spiBusy := true, spiDr := 0xAF#8, sched := [.serialDone] })
      (fun t => (t.spiBusy, t.spiDr, t.trace)) = some (false, 0xAF#8, [.serial 0xAF#8]) := by decide
theorem test_batch_done :
    after (step { readyB with txBusy := true, txBuf := [0x80#8, 0xA7#8], sched := [.batchDone] })
      (fun t => (t.txBusy, t.txBuf, t.trace)) = some (false, [], [.batch 0x3C [0x80#8, 0xA7#8]]) := by decide
/-- X1, X3, X5, X7. -/
theorem test_refusals :
    [0x2000#16, 0x3001#16, 0x8000#16, 0x9000#16, 0xB0A7#16, 0xC000#16, 0xD000#16].map
      (fun w => refusalOf (presented w (cold cfgT))) = List.replicate 7 (some .notBooted) ∧
    refusalOf (presented 0xFFFF#16 readyS) = some (.reservedWord .opcode) ∧
    refusalOf (step { readyS with seq := .pFetch, sched := [.fbWrite 5 0xFF#8] }) = some .fbBusy ∧
    refusalOf (presented 0x2000#16 { readyS with seq := .iSleep }) = some .notReady := by decide

/-- The host's entry point runs the word it is given, from reset. -/
theorem test_withFetchWord :
    after (step (State.reset.withFetchWord 16 0x2001)) (fun t => (t.seq, t.clr)) = some (.pFetch, true) ∧
    after (step (State.reset.withFetchWord 16 0x1000)) (·.seq) = some .b1Pins := by decide

/-! ### The frame buffer -/

theorem test_memory_write :
    Memory.write (Memory.ofBytes [0x11#8, 0x00#8, 0x33#8]) 2 0x00#8 = [(0, 0x11#8)] ∧
    Memory.read (Memory.write [] 5 0x7F#8) 5 = 0x7F#8 ∧ Memory.read (Memory.write [] 5 0x7F#8) 4 = 0x00#8 := by decide
theorem test_memory_ill_formed :
    Memory.wf [(1, 0x01#8), (1, 0x02#8)] = false ∧ Memory.wf [(2, 0x01#8), (1, 0x02#8)] = false ∧
    Memory.wf [(0, 0x00#8)] = false ∧ Memory.wf (Memory.ofBytes fbT) = true := by decide

/-! ### Witnesses: for each statement with hypotheses, states and operands that meet all of them together -/

/-- The small machine, ready, with a two-byte frame buffer. -/
def small (t : Transport) : State :=
  { bootDone (cold (tiny t)) [] with trace := [], fb := Memory.ofBytes [0x11#8, 0x22#8], fbLen := 2 }

/-- The same with another micro-state. -/
def smallAt (t : Transport) (q : MicroState) : State := { small t with seq := q }

/-- The small machine in the middle of a byte: the second byte of a serial frame is in the shifter. -/
def draining : State :=
  { smallAt .serial .pDrain with
    clr := false, ftIdx := 2, lat := 0x22#8, spiDr := 0x22#8, spiBusy := true }

/-- The small machine in the middle of a batch: the first chunk of a frame is being flushed. -/
def flushing : State :=
  { smallAt .batched .qClose with clr := false, ftIdx := 1, ckIdx := 1, txBusy := true, txBuf := [0x40#8, 0x11#8] }

/-- The small machine with a command batch being flushed. -/
def flushingCommand : State :=
  { smallAt .batched .cRestore with mode := .holds .command, lat := 0xA7#8, txBusy := true, txBuf := [0x80#8, 0xA7#8] }

/-- The small machine on SERIAL, left in command mode by an ENTERCMD. -/
def smallCommand : State := { small .serial with mode := .holds .command, dc := .driven .command }

/-- The small machine asleep, an interrupt on its way. -/
def asleep : State := { smallAt .serial .iSleep with phase := .idle, sched := [.irq] }

/-- The small machine before the last step of BOOT. -/
def beforeGating : State :=
  { smallAt .serial .b7Pwr with phase := .boot, pwrGated := [], disp := Disp.reset 2 }

/-- A schedule on which every operation of the small machine completes. -/
def prompt : List Move := promptTurns 14

/-- An operation is started in `s` and reaches `t` in `k` steps. -/
def Reaches (i : Instr) (s : State) (k : Nat) (s' t : State) : Prop := exec i s = .next s' ∧ run k s' = .next t

theorem reaches_of {i : Instr} {s : State} {k : Nat} (h : completes (exec i s) = true)
    (h' : completes (run k (nextOr s (exec i s))) = true) :
    Reaches i s k (nextOr s (exec i s)) (nextOr s (run k (nextOr s (exec i s)))) :=
  ⟨eq_nextOr s h, eq_nextOr s h'⟩

/-- What the end-state statements ask: a calm inductive state, an operation started in it, and its end. -/
def Completes (i : Instr) (s : State) (k : Nat) (q : MicroState) : Prop :=
  s.inv = true ∧ s.calm = true ∧ ∃ s' t, Reaches i s k s' t ∧ t.seq = q

theorem completes_of {i : Instr} {s : State} {k : Nat} {q : MicroState} (hi : s.inv = true) (hc : s.calm = true)
    (h : completes (exec i s) = true) (h' : completes (run k (nextOr s (exec i s))) = true)
    (hq : (nextOr s (run k (nextOr s (exec i s)))).seq = q) : Completes i s k q :=
  ⟨hi, hc, _, _, reaches_of h h', hq⟩

theorem witness_EncodeOfDecodedIsTheWord : decode 0x9280#16 = .ok (.setind 2#4 0x80#8) := by decide

theorem witness_DecoderAgreesWithOpcodeTable :
    ∃ r ∈ opTable, r.selects 0xB0A7#16 = true ∧ ∃ i, decode 0xB0A7#16 = .ok i := by
  exact ⟨⟨"SENDCMD", .b, 0xB000#16⟩, by decide, by decide, _, (by decide : decode 0xB0A7#16 = .ok (.sendcmd 0xA7#8))⟩

/-- One word for each way of being reserved, at its boundary. -/
theorem witness_ReservedWordsAreRefused :
    opcodeOf 0x0FFF#16 = 0x0#4 ∧ opcodeOf 0xE000#16 = 0xE#4 ∧ opcodeOf 0xFFFF#16 = 0xF#4 ∧
    (opcodeOf 0xB100#16 ≠ 0x9#4 ∧ selOf 0xB100#16 ≠ 0#4) ∧
    (opcodeOf 0xD001#16 ∈ [0x1#4, 0x8#4, 0xA#4, 0xC#4, 0xD#4] ∧ immOf 0xD001#16 ≠ 0#8) ∧
    (opcodeOf 0x2002#16 ∈ [0x2#4, 0x3#4, 0x4#4, 0x5#4, 0x6#4, 0x7#4] ∧ (immOf 0x2002#16).toNat ≥ 2) ∧
    (opcodeOf 0x9300#16 = 0x9#4 ∧ cfgT.nChannels ≤ (selOf 0x9300#16).toNat) := by decide

theorem witness_StepRunsThePresentedOperation :
    { small .serial with sched := [.present 0x92FF#16] }.sched = [.present 0x92FF#16] ∧
    decode 0x92FF#16 = .ok (.setind 2#4 0xFF#8) ∧ Instr.wf (small .serial).cfg (.setind 2#4 0xFF#8) = true := by decide

theorem witness_StepTakesOneAgentsTurn :
    (small .serial).sched = [] ∧ draining.spiBusy = true ∧ flushing.txBusy = true ∧
    asleep.sched = [.irq] ∧ asleep.seq = .iSleep ∧ asleep.irqEn = true := by decide

theorem witness_SpecWordsDecode : cfgT.nChannels = 3 ∧ { cfgT with nChannels := 16 }.nChannels = 16 := by decide

theorem witness_ResetLeavesTheStatedValues :
    { draining with sched := [.reset plat, .block] }.sched = [.reset plat, .block] := by decide

theorem witness_OperationsBeforeBootAreRefused :
    ((cold (tiny .serial)).inv = true ∧ (cold (tiny .serial)).booted = false) ∧
    ({ cold (tiny .serial) with seq := .xIrq }.inv = true ∧ { cold (tiny .serial) with seq := .xIrq }.booted = false) ∧
    Instr.idle ≠ .boot ∧ Instr.idle ≠ .exithalt := by decide

theorem witness_BootIsOneShot :
    (small .serial).seq = .ready ∧ (small .serial).seq ≠ .wBoot ∧
    after (step { small .serial with sched := [.reset plat] }) (·.seq) = some .wBoot := by decide

theorem witness_BootStarts : (cold cfgT).seq = .wBoot ∧ (small .serial).seq ≠ .wBoot := by decide

theorem witness_BootEndStateUnderEverySchedule :
    Completes .boot { cold (tiny .serial) with sched := prompt } 39 .ready ∧
    Completes .boot { cold (tiny .batched) with sched := prompt } 39 .ready :=
  ⟨completes_of (by decide) (by decide) (by decide) (by decide) (by decide),
    completes_of (by decide) (by decide) (by decide) (by decide) (by decide)⟩

theorem witness_SafeModeEndState :
    Completes .boot { cold (tiny .serial) with btnConfirm := true, sched := [.block, .block] } 2 .hSafe :=
  completes_of (by decide) (by decide) (by decide) (by decide) (by decide)

theorem witness_BootCompletesOnAPromptBus :
    (cold (tiny .serial)).inv = true ∧ (cold (tiny .serial)).seq = .wBoot ∧
    (cold (tiny .serial)).btnConfirm = false := by decide

theorem witness_BootMicroStepsAsWritten :
    (smallAt .serial .b2Bus).seq = .b2Bus ∧ (smallAt .serial .b2Bus).cfg.transport = .serial ∧
    (smallAt .batched .b2Bus).cfg.transport = .batched ∧ (smallAt .serial .b1Safe).seq = .b1Safe ∧
    (smallAt .serial .b1Safe).btnConfirm = false ∧
    [MicroState.b1Pins, .b3RstLo, .b3Hold, .b3RstHi, .b3Settle, .b4Cs, .b5Cmd, .b6Data, .b7Pwr].all
      (fun q => (smallAt .serial q).seq = q ∧ (smallAt .batched q).seq = q) = true := by decide

theorem witness_EntercmdResult_EnterdataResult_CommandOperationsStart :
    ((small .serial).seq = .ready ∧ (small .serial).cfg.transport = .serial) ∧
    ((small .batched).seq = .ready ∧ (small .batched).cfg.transport = .batched) := by decide

theorem witness_CommandMicroStepsAsWritten :
    ((smallAt .serial .cSend).busReady = true ∧ (smallAt .serial .cSend).spiBusy = false) ∧
    ({ smallAt .serial .cRestore with spiBusy := true }.spiBusy = true) ∧
    ((smallAt .batched .cEnter).busReady = true ∧ (smallAt .batched .cEnter).txOpen = false ∧
      (smallAt .batched .cEnter).txBusy = false ∧ 2 ≤ (smallAt .batched .cEnter).cfg.txbufCap) ∧
    ({ smallAt .batched .cSend with txOpen := true }.txOpen = true) ∧
    (flushingCommand.seq = .cRestore ∧ flushingCommand.txBusy = true) ∧
    (smallAt .batched .cRestore).txBusy = false := by decide

theorem witness_CommandEndStateUnderEverySchedule :
    Completes (.sendcmd 0xA7#8) { smallCommand with sched := prompt } 9 .ready ∧
    Completes (.setflipv true) { small .batched with sched := prompt } 9 .ready ∧
    (0xC0#8 = cmdRom (tiny .batched) .flipv true) :=
  ⟨completes_of (by decide) (by decide) (by decide) (by decide) (by decide),
    completes_of (by decide) (by decide) (by decide) (by decide) (by decide), by decide⟩

theorem witness_CommandsCompleteOnAPromptBus :
    (smallCommand.inv = true ∧ smallCommand.seq = .ready) ∧
    ((small .batched).inv = true ∧ (small .batched).seq = .ready) := by decide

theorem witness_InvertPairSendsTwoDistinctBytes :
    State.inv { small .serial with
      sched := .present 0x4001#16 :: (promptTurns 3 ++ .present 0x4000#16 :: (promptTurns 3 ++ [])) } = true ∧
    (small .serial).seq = .ready := by
  decide

theorem witness_ModeOperationsTouchNothingElse :
    Completes (.setpwr false) { small .serial with sched := prompt } 9 .ready ∧
    Completes (.setpwr false) { small .serial with sched := prompt } 4 .cRestore :=
  ⟨completes_of (by decide) (by decide) (by decide) (by decide) (by decide),
    completes_of (by decide) (by decide) (by decide) (by decide) (by decide)⟩

/-- At the shortest buffer that is long enough. -/
theorem witness_PaintStarts :
    (small .serial).seq = .ready ∧ (small .serial).cfg.frameLen = (small .serial).fbLen ∧
    (small .batched).cfg.frameLen = (small .batched).fbLen := by decide

theorem witness_SerialPaintEndStateUnderEverySchedule :
    Completes (.paint false) { small .serial with sched := prompt } 15 .ready ∧
    Completes (.paint true) { smallCommand with sched := prompt } 15 .ready :=
  ⟨completes_of (by decide) (by decide) (by decide) (by decide) (by decide),
    completes_of (by decide) (by decide) (by decide) (by decide) (by decide)⟩

theorem witness_BatchedPaintEndStateUnderEverySchedule :
    Completes (.paint false) { small .batched with sched := prompt } 30 .ready ∧
    Completes (.paint true) { small .batched with sched := prompt } 30 .ready :=
  ⟨completes_of (by decide) (by decide) (by decide) (by decide) (by decide),
    completes_of (by decide) (by decide) (by decide) (by decide) (by decide)⟩

theorem witness_EverySerialInterleavingOccurs_PaintCompletesOnAPromptBus :
    (small .serial).inv = true ∧ (small .serial).seq = .ready ∧ (small .serial).cfg.transport = .serial ∧
    (small .serial).cfg.frameLen ≤ (small .serial).fbLen ∧
    (small .batched).inv = true ∧ (small .batched).cfg.frameLen ≤ (small .batched).fbLen := by decide

/-- Also for ClearPathNeverReadsTheBuffer, at its end and in its middle. -/
theorem witness_PaintSendsTheFrameInRasterOrder :
    Completes (.paint false) { small .serial with sched := prompt } 15 .ready ∧
    Completes (.paint true) { small .batched with sched := prompt } 30 .ready ∧
    Completes (.paint true) { small .serial with sched := prompt } 1 .pSend :=
  ⟨completes_of (by decide) (by decide) (by decide) (by decide) (by decide),
    completes_of (by decide) (by decide) (by decide) (by decide) (by decide),
    completes_of (by decide) (by decide) (by decide) (by decide) (by decide)⟩

theorem witness_PaintLeavesTheFrameInTheDisplay :
    (small .serial).disp.valid = true ∧ (small .serial).mode = .holds .data ∧
    (smallCommand.disp.valid = true ∧ smallCommand.mode = .holds .command) ∧
    Completes (.paint false) { smallCommand with sched := prompt } 15 .ready :=
  ⟨by decide, by decide, by decide, completes_of (by decide) (by decide) (by decide) (by decide) (by decide)⟩

theorem witness_FrameBufferLengthRule :
    { small .serial with fbLen := 1 }.fbLen < (small .serial).cfg.frameLen ∧
    after (microStep { smallAt .serial .pFetch with clr := false, ftIdx := 1 }) (·.trace) =
      some ([] ++ [.fbRead 1 0x22#8]) := by decide

theorem witness_IdleEntersSleep :
    (small .serial).seq = .ready ∧ (cold cfgT).seq ≠ .ready ∧ asleep.seq = .iSleep := by decide

theorem witness_SleepChangesNothing :
    Completes .idle { small .serial with sched := [.serialDone, .irq] } 1 .iSleep ∧
    Completes .idle { small .serial with sched := [.serialDone, .irq] } 2 .ready :=
  ⟨completes_of (by decide) (by decide) (by decide) (by decide) (by decide),
    completes_of (by decide) (by decide) (by decide) (by decide) (by decide)⟩

theorem witness_SleepWithoutInterruptDoesNotEnd :
    ({ asleep with irqEn := false }.calm = true ∧ completes (run 3 { asleep with irqEn := false }) = true) ∧
    (Move.irq ∉ { asleep with sched := [.block] }.sched ∧
      completes (run 3 { asleep with sched := [.block] }) = true) := by decide

/-- The highest channel there is, and the first there is not. -/
theorem witness_SetindResult :
    (small .serial).seq = .ready ∧ (2#4).toNat < (small .serial).cfg.nChannels ∧
    (small .serial).cfg.nChannels ≤ (3#4).toNat ∧ (small .serial).cfg.indicator = .pwm ∧
    (ready (cfgOf .serial .onoff)).cfg.indicator = .onoff := by decide

theorem witness_ExithaltMicroStepsAsWritten :
    (small .serial).seq = .ready ∧ (cold cfgT).seq = .wBoot ∧
    (asleep.seq ≠ .ready ∧ asleep.seq ≠ .wBoot) ∧ (smallAt .serial .xIrq).seq = .xIrq ∧
    (smallAt .serial .xLink).seq = .xLink ∧ (smallAt .serial .xHandoff).seq = .xHandoff := by decide

theorem witness_ExithaltReachesTheLoader :
    Completes .exithalt { small .serial with sched := [.block, .irq, .block, .block] } 4 .hLoader ∧
    Completes .exithalt { cold (tiny .serial) with sched := [.block, .block, .block] } 3 .hLoader :=
  ⟨completes_of (by decide) (by decide) (by decide) (by decide) (by decide),
    completes_of (by decide) (by decide) (by decide) (by decide) (by decide)⟩

theorem witness_TerminalStatesAreTerminal :
    (safeModeDone (cold (tiny .serial)) prompt).inv = true ∧ (safeModeDone (cold (tiny .serial)) prompt).halted = true ∧
    (exitDone (small .serial) prompt).inv = true ∧ (exitDone (small .serial) prompt).halted = true ∧
    completes (run 3 (exitDone (small .serial) prompt)) = true := by decide

/-- A batch with room for one more byte, and a full one. -/
theorem witness_BusPrimitivesAsWritten :
    ((small .serial).busReady = true ∧ (small .serial).spiBusy = false) ∧
    (draining.busReady = true ∧ draining.spiBusy = true) ∧ (cold cfgT).busReady = false ∧
    ((small .batched).txOpen = false ∧ (small .batched).txBusy = false) ∧
    [0x40#8].length < (small .batched).cfg.txbufCap ∧ (small .batched).cfg.txbufCap ≤ [0x40#8, 0x11#8].length ∧
    { small .batched with txOpen := true }.txOpen = true ∧
    (flushing.busReady = true ∧ flushing.txOpen = false ∧ flushing.txBusy = true) ∧
    { small .batched with txOpen := true }.busReady = true := by decide

theorem witness_OneByteInFlight :
    draining.inv = true ∧ draining.busReady = true ∧ draining.spiBusy = true ∧
    after (step { draining with sched := [.block] }) (·.spiBusy) = some true := by decide

theorem witness_OnlySerialDoneCompletesAByte :
    { draining with sched := [.serialDone] }.inv = true ∧
    after (step { draining with sched := [.serialDone] }) (fun t => (t.spiBusy, t.trace)) =
      some (false, [] ++ [.serial 0x22#8]) := by decide

theorem witness_OnlyBatchDoneDeliversABatch_TwoBatchShapes :
    ({ flushing with sched := [.batchDone] }.inv = true ∧
      after (step { flushing with sched := [.batchDone] }) (fun t => (t.txBusy, t.trace)) =
        some (false, [] ++ [.batch 0x3C [0x40#8, 0x11#8]])) ∧
    ({ flushingCommand with sched := [.batchDone] }.inv = true ∧
      after (step { flushingCommand with sched := [.batchDone] }) (·.trace) =
        some ([] ++ [.batch 0x3C [0x80#8, 0xA7#8]])) := by decide

theorem witness_StalledBlockStaysStuck :
    (draining.inv = true ∧ draining.waiting = true) ∧ (flushing.inv = true ∧ flushing.waiting = true) ∧
    (flushingCommand.inv = true ∧ flushingCommand.waiting = true) ∧
    [Move.block].all (· == .block) = true := by decide

theorem witness_InvariantHoldsAtReset : (tiny .serial).wf = true ∧ (tiny .batched).wf = true := by decide

/-- Also for BlockNeverRefusesByItself, DataModeIsKeptWithoutEntercmd, TraceOnlyGrows and ConfigurationNeverChanges. -/
theorem witness_EveryStepKeepsTheInvariant :
    ({ draining with sched := [.serialDone] }.inv = true ∧ dataReady { draining with sched := [.serialDone] } = true ∧
      completes (step { draining with sched := [.serialDone] }) = true) ∧
    (flushing.inv = true ∧ dataReady flushing = true ∧ completes (step flushing) = true) := by decide

/-- A transition of `phase` of each row of the table, from states that meet the invariant. -/
theorem witness_PhaseTransitionsAreTheTable :
    (beforeGating.inv = true ∧ after (step beforeGating) (·.phase) = some .running) ∧
    (after (step { cold (tiny .serial) with seq := .b1Safe, btnConfirm := true }) (·.phase) = some .safeHalt) ∧
    ({ cold (tiny .serial) with seq := .xHandoff }.inv = true ∧
      after (step { cold (tiny .serial) with seq := .xHandoff }) (·.phase) = some .loaderHalt) ∧
    after (presented 0x8000#16 (small .serial)) (·.phase) = some .idle ∧
    (asleep.inv = true ∧ after (step asleep) (·.phase) = some .running) ∧
    ((smallAt .serial .xHandoff).inv = true ∧
      after (step (smallAt .serial .xHandoff)) (·.phase) = some .loaderHalt) ∧
    after (step { small .serial with sched := [.reset plat] }) (·.phase) = some .boot := by decide

/-- A step that writes each latch, and one in a booted state. -/
theorem witness_LineLatchesAreWrittenOnlyWhereStated :
    ({ cold (tiny .serial) with seq := .b1Pins }.inv = true ∧
      after (step { cold (tiny .serial) with seq := .b1Pins }) (fun t => (t.rst, t.cs, t.dc)) =
        some (.driven .high, .driven .deasserted, .driven .data)) ∧
    ((small .serial).inv = true ∧ (small .serial).booted = true ∧
      after (presented 0xC000#16 (small .serial)) (·.dc) = some (.driven .command)) := by decide

theorem witness_BlockNeverWritesTheFrameBuffer :
    { smallAt .serial .pFetch with ftIdx := 1 }.inv = true ∧
    after (step { smallAt .serial .pFetch with ftIdx := 1 }) (·.trace) = some ([] ++ [.fbRead 1 0x22#8]) := by decide

/-- At the last index of the buffer and at the first past it. -/
theorem witness_HostWritesBetweenPaintsOnly :
    ({ small .serial with sched := [.fbWrite 1 0x7F#8] }.inv = true ∧ (small .serial).painting = false ∧
      1 < (small .serial).fbLen) ∧
    { small .serial with sched := [.fbSupply [0x01#8]] }.painting = false ∧
    { draining with sched := [.fbWrite 1 0x7F#8] }.painting = true ∧
    { flushing with sched := [.fbSupply []] }.painting = true ∧
    (small .serial).fbLen ≤ 2 := by decide

theorem witness_UnreadyWordsAndForeignDriversAreRefused :
    { draining with sched := [.present 0x8000#16] }.isReady = false ∧
    { small .serial with sched := [.foreignDrive] }.sched = [.foreignDrive] := by decide

theorem witness_GatesAndEnablesAreWrittenOnce :
    after (step beforeGating) (·.pwrGated) = some [.other 0, .other 1] ∧
    after (step (smallAt .serial .xIrq)) (·.irqEn) = some false ∧ (smallAt .serial .xIrq).irqEn = true ∧
    after (step (smallAt .serial .xLink)) (·.hostlinkEn) = some false := by decide

theorem witness_InterruptsOutsideSleepAreInvisible :
    { small .serial with sched := [.irq] }.sched = [.irq] ∧ { small .serial with sched := [.irq] }.seq ≠ .iSleep := by
  decide

end Sys2Proof.Tests
end

section
/-! SUPPORT. Postconditions of a micro-step: what holds of every state a `Micro` goes to, computed along the parts it is
made of (`andThen`, `await`, the primitives of R95 to R103 and the frame-buffer read). -/

namespace Sys2Proof.Machine

/-- Every state the micro-step goes to satisfies `P`; a micro-step that waits or is refused goes to none. -/
def Micro.Ensures (m : Micro) (P : State → Prop) : Prop := ∀ t, m = .go t → P t

@[simp] theorem Micro.ensures_go {s : State} {P : State → Prop} : (Micro.go s).Ensures P ↔ P s := by
  simp [Micro.Ensures]

@[simp] theorem Micro.ensures_wait {P : State → Prop} : Micro.wait.Ensures P := by simp [Micro.Ensures]

@[simp] theorem Micro.ensures_refuse {r : Refusal} {P : State → Prop} : (Micro.refuse r).Ensures P := by
  simp [Micro.Ensures]

@[simp] theorem Micro.ensures_andThen {m : Micro} {k : State → Micro} {P : State → Prop} :
    (m.andThen k).Ensures P ↔ m.Ensures fun t => (k t).Ensures P := by
  cases m <;> simp

@[simp] theorem ensures_await {c : Bool} {k : Micro} {P : State → Prop} :
    (await c k).Ensures P ↔ (c = true → k.Ensures P) := by
  cases c <;> simp

@[simp] theorem xferStart_ensures {b : Byte} {s : State} {P : State → Prop} :
    (xferStart b s).Ensures P ↔
      (s.busReady = true → s.spiBusy = false → P { s with spiDr := b, spiBusy := true }) := by
  simp [Micro.Ensures, xferStart_eq_go]

@[simp] theorem txBegin_ensures {s : State} {P : State → Prop} :
    (txBegin s).Ensures P ↔
      (s.busReady = true → s.txOpen = false → s.txBusy = false → P { s with txBuf := [], txOpen := true }) := by
  simp only [Micro.Ensures, txBegin_eq_go]
  exact ⟨fun h hr ho hb => h _ ⟨hr, ho, hb, rfl⟩, fun h t ⟨hr, ho, hb, ht⟩ => ht ▸ h hr ho hb⟩

@[simp] theorem txWrite_ensures {b : Byte} {s : State} {P : State → Prop} :
    (txWrite b s).Ensures P ↔
      (s.txOpen = true → s.txBuf.length < s.cfg.txbufCap → P { s with txBuf := s.txBuf ++ [b] }) := by
  simp [Micro.Ensures, txWrite_eq_go]

@[simp] theorem txEndStart_ensures {s : State} {P : State → Prop} :
    (txEndStart s).Ensures P ↔ (s.txOpen = true → P { s with txOpen := false, txBusy := true }) := by
  simp [Micro.Ensures, txEndStart_eq_go]

@[simp] theorem fbRead_ensures {s : State} {i : Nat} {k : Byte → State → Micro} {P : State → Prop} :
    (fbRead s i k).Ensures P ↔
      (i < s.cfg.frameLen → i < s.fbLen → (k (s.fb.read i) (s.emit (.fbRead i (s.fb.read i)))).Ensures P) := by
  simp only [Micro.Ensures, fbRead_eq_go]
  exact ⟨fun h hn hl t ht => h t ⟨hn, hl, ht⟩, fun h t ⟨hn, hl, ht⟩ => h hn hl t ht⟩

@[simp] theorem nextPixel_ensures {s : State} {k : Byte → State → Micro} {P : State → Prop} :
    (nextPixel s k).Ensures P ↔
      (s.clr = true → (k 0x00#8 s).Ensures P) ∧ (s.clr = false → (fbRead s s.ftIdx k).Ensures P) := by
  cases h : s.clr <;> simp [nextPixel_clear, nextPixel_read, h]

end Sys2Proof.Machine
end

section
/-! PROOF. The configuration is constant (R7, R28): no operation's acceptance, no micro-step of the block and no move of
another agent writes `State.cfg`. -/

namespace Sys2Proof.Machine

/-! ### The shared operations that answer a state -/

@[simp] theorem initBus_cfg (s : State) : (initBus s).cfg = s.cfg := by unfold initBus; split <;> rfl
@[simp] theorem enterSafeHalt_cfg (s : State) : (enterSafeHalt s).cfg = s.cfg := rfl
@[simp] theorem enterLoaderHalt_cfg (s : State) : (enterLoaderHalt s).cfg = s.cfg := rfl
@[simp] theorem enterSleep_cfg (s : State) : (enterSleep s).cfg = s.cfg := rfl
@[simp] theorem finishPaint_cfg (s : State) : (finishPaint s).cfg = s.cfg := rfl
@[simp] theorem setIndicator_cfg (ch : Nat) (v : Byte) (s : State) : (setIndicator ch v s).cfg = s.cfg := rfl
@[simp] theorem startCommand_cfg (s : State) (c : Byte) (src : CmdSource) : (startCommand s c src).cfg = s.cfg := rfl
@[simp] theorem finishCommand_cfg (s : State) : (finishCommand s).cfg = s.cfg := s.enterMode_cfg .data
@[simp] theorem resetMove_cfg (p : Platform) (s : State) : (resetMove p s).cfg = s.cfg := rfl

@[simp] theorem serialDone_cfg (s : State) : (serialDone s).cfg = s.cfg := by
  obtain ⟨-, h⟩ | ⟨-, h⟩ := serialDone_cases s <;> rw [h]

@[simp] theorem batchDone_cfg (s : State) : (batchDone s).cfg = s.cfg := by
  obtain ⟨-, h⟩ | ⟨-, h⟩ := batchDone_cases s <;> rw [h]

@[simp] theorem wake_cfg (s : State) : (wake s).cfg = s.cfg := by
  obtain ⟨-, -, h⟩ | ⟨-, h⟩ := wake_cases s <;> rw [h]

/-! ### The micro-steps that branch -/

theorem microB1Safe_cfg (s : State) : (microB1Safe s).Ensures (·.cfg = s.cfg) := by
  unfold microB1Safe; split <;> simp

theorem startBootByte_cfg (b : Byte) (s : State) : (startBootByte b s).Ensures (·.cfg = s.cfg) := by
  unfold startBootByte; split <;> simp

theorem microB5Prog_cfg (s : State) : (microB5Prog s).Ensures (·.cfg = s.cfg) := by
  unfold microB5Prog
  refine ensures_await.mpr fun _ => ?_
  split
  · exact startBootByte_cfg _ s
  · simp

theorem microCEnter_cfg (s : State) : (microCEnter s).Ensures (·.cfg = s.cfg) := by
  unfold microCEnter; split <;> simp

theorem microCSend_cfg (s : State) : (microCSend s).Ensures (·.cfg = s.cfg) := by
  unfold microCSend; split <;> simp

theorem microCRestore_cfg (s : State) : (microCRestore s).Ensures (·.cfg = s.cfg) := by
  unfold microCRestore; split <;> simp

theorem microQFill_cfg (s : State) : (microQFill s).Ensures (·.cfg = s.cfg) := by
  unfold microQFill; split <;> simp

theorem microQClose_cfg (s : State) : (microQClose s).Ensures (·.cfg = s.cfg) := by
  unfold microQClose
  split
  · simp
  · refine ensures_await.mpr fun _ => ?_
    split <;> simp

/-! ### The block, the operations, the other agents -/

/-- One case for each micro-state of R31. -/
theorem micro_cfg (s : State) : (micro s).Ensures (·.cfg = s.cfg) := by
  unfold micro
  cases s.seq with
  | wBoot | ready | iSleep | hSafe | hLoader => exact Micro.ensures_wait
  | b1Pins => simp [microB1Pins]
  | b1Safe => exact microB1Safe_cfg s
  | b2Bus => simp [microB2Bus]
  | b3RstLo => simp [microB3RstLo]
  | b3Hold => simp [microB3Hold]
  | b3RstHi => simp [microB3RstHi]
  | b3Settle => simp [microB3Settle]
  | b4Cs => simp [microB4Cs]
  | b5Cmd => simp [microB5Cmd]
  | b5Prog => exact microB5Prog_cfg s
  | b6Data => simp [microB6Data]
  | b7Pwr => simp [microB7Pwr]
  | cEnter => exact microCEnter_cfg s
  | cSend => exact microCSend_cfg s
  | cRestore => exact microCRestore_cfg s
  | pFetch => simp [microPFetch]
  | pSend => simp [microPSend]
  | pDrain => simp [microPDrain]
  | qOpen => simp [microQOpen]
  | qFill => exact microQFill_cfg s
  | qClose => exact microQClose_cfg s
  | xIrq => simp [microXIrq]
  | xLink => simp [microXLink]
  | xHandoff => simp [microXHandoff]

theorem microStep_cfg {s t : State} (h : microStep s = .next t) : t.cfg = s.cfg := by
  obtain hgo | ⟨-, rfl⟩ := Micro.turn_eq_next.mp h
  · exact micro_cfg s t hgo
  · rfl

theorem acceptReady_next_cfg {s t u : State} (hu : u.cfg = s.cfg) (h : acceptReady s (.next u) = .next t) :
    t.cfg = s.cfg := by
  obtain ⟨-, ⟨⟩⟩ := acceptReady_eq_next.mp h
  exact hu

theorem execBoot_cfg {s t : State} (h : execBoot s = .next t) : t.cfg = s.cfg := by
  unfold execBoot at h
  split at h
  · cases h; rfl
  · split at h <;> cases h

theorem execPaint_cfg {c : Bool} {s t : State} (h : execPaint c s = .next t) : t.cfg = s.cfg := by
  obtain ⟨-, h⟩ := acceptReady_eq_next.mp h
  split at h <;> cases h
  rfl

theorem execSetind_cfg {ch : BitVec 4} {v : Byte} {s t : State} (h : execSetind ch v s = .next t) : t.cfg = s.cfg := by
  unfold execSetind at h
  split at h
  · exact acceptReady_next_cfg (setIndicator_cfg _ v s) h
  · cases h

theorem execExithalt_cfg {s t : State} (h : execExithalt s = .next t) : t.cfg = s.cfg := by
  unfold execExithalt at h
  split at h <;> cases h
  rfl

theorem exec_cfg {i : Instr} {s t : State} (h : exec i s = .next t) : t.cfg = s.cfg := by
  cases i with
  | boot => exact execBoot_cfg h
  | paint c => exact execPaint_cfg h
  | setind ch v => exact execSetind_cfg h
  | exithalt => exact execExithalt_cfg h
  | idle => exact acceptReady_next_cfg (enterSleep_cfg s) h
  | setpwr b | setinv b | setallon b | setfliph b | setflipv b | sendcmd k =>
    exact acceptReady_next_cfg (startCommand_cfg s _ _) h
  | entercmd | enterdata =>
    refine acceptReady_next_cfg ?_ h
    rw [State.goto_cfg, State.enterMode_cfg]

theorem takeMove_exec_cfg {m : Move} {s t : State} (h : takeMove exec m s = .next t) : t.cfg = s.cfg := by
  cases m with
  | block => exact microStep_cfg h
  | present w =>
    obtain ⟨i, -, hi⟩ := presentWord_eq_next.mp h
    exact exec_cfg hi
  | fbWrite i v =>
    obtain ⟨-, -, rfl⟩ := hostFbWrite_eq_next.mp h
    rfl
  | fbSupply bs =>
    obtain ⟨-, rfl⟩ := hostFbSupply_eq_next.mp h
    rfl
  | platform i l =>
    obtain ⟨-, rfl⟩ := platformSet_eq_next.mp h
    rfl
  | serialDone => cases h; exact serialDone_cfg s
  | batchDone => cases h; exact batchDone_cfg s
  | irq => cases h; exact wake_cfg s
  | button held => cases h; rfl
  | foreignDrive => cases h
  | reset p => cases h; exact resetMove_cfg p s

theorem step_cfg {s t : State} (h : step s = .next t) : t.cfg = s.cfg := by
  obtain ⟨-, hblock⟩ | ⟨m, rest, -, hmove⟩ := step_cases h
  · exact microStep_cfg hblock
  · have hcfg := takeMove_exec_cfg hmove
    exact hcfg

/-- Settles O58: neither a turn of the block nor a move taken off the schedule, a reset included, writes `cfg`. -/
theorem configurationNeverChanges : Obligations.ConfigurationNeverChanges := by
  unfold Obligations.ConfigurationNeverChanges
  exact fun _ _ => step_cfg

end Sys2Proof.Machine
end

section
/-! SUPPORT. The parts of the invariant, and what they give in READY. -/

namespace Sys2Proof.Machine

theorem State.inv_iff {s : State} :
    s.inv = true ↔
      s.cfg.wf = true ∧ s.fb.wf = true ∧ phaseOk s = true ∧ busOk s = true ∧ linesOk s = true ∧
        outputsOk s = true ∧ dispOk s = true ∧ cmdSrcOk s = true := by
  simp [State.inv, and_assoc]

/-- The bus is ready and idle on both transports between operations (R34, R35). -/
theorem State.inv_bus_of_ready {s : State} (h : s.inv = true) (hq : s.seq = .ready) :
    s.busReady = true ∧ s.spiBusy = false ∧ s.txOpen = false ∧ s.txBusy = false ∧ s.txBuf = [] := by
  obtain ⟨-, -, -, hbus, -⟩ := State.inv_iff.mp h
  simpa [busOk, busQuiet, hq, and_assoc] using hbus

theorem cfg_frameLen_pos {c : Cfg} (h : c.wf = true) : 1 ≤ c.frameLen := by
  simp only [Cfg.wf, Bool.and_eq_true, decide_eq_true_eq, and_assoc] at h
  obtain ⟨-, -, -, hn, -⟩ := h
  exact hn

end Sys2Proof.Machine
end

section
/-! SUPPORT. Runs under a given stretch of the schedule: from which state to which the moves `ms` lead, whatever moves
come after them. -/

namespace Sys2Proof.Machine

/-- The moves `ms` lead from `s` to `t`, whatever is scheduled after them; the schedules of `s` and `t` do not count. -/
def Plays (ms : List Move) (s t : State) : Prop :=
  ∀ rest, run ms.length { s with sched := ms ++ rest } = .next { t with sched := rest }

theorem run_succ {k : Nat} {s t : State} (h : step s = .next t) : run (k + 1) s = run k t := by simp [run, h]

theorem run_add {m n : Nat} {s t : State} (h : run m s = .next t) : run (m + n) s = run n t := by
  induction m generalizing s with
  | zero =>
    cases h
    rw [Nat.zero_add]
  | succ m ih =>
    cases hstep : step s with
    | next u =>
      rw [run_succ hstep] at h
      rw [Nat.succ_add, run_succ hstep]
      exact ih h
    | fault r => simp [run, hstep] at h
    | refused r => simp [run, hstep] at h

theorem Plays.nil (s : State) : Plays [] s s := fun _ => rfl

theorem Plays.append {ms ns : List Move} {s t u : State} (h : Plays ms s t) (h' : Plays ns t u) :
    Plays (ms ++ ns) s u := by
  intro rest
  rw [List.length_append, List.append_assoc, run_add (h (ns ++ rest))]
  exact h' rest

theorem Plays.run_length {ms : List Move} {s t : State} (h : Plays ms s t) :
    run ms.length { s with sched := ms } = .next { t with sched := [] } := by
  simpa using h []

/-- One move, taken off the schedule and made. -/
theorem plays_move {m : Move} {s t : State}
    (h : ∀ rest, takeMove exec m { s with sched := rest } = .next { t with sched := rest }) : Plays [m] s t :=
  fun rest => run_succ ((step_cons (rest := rest) rfl).trans (h rest))

/-- A turn of the block in which it takes its micro-step. -/
theorem plays_block {s t : State} (h : ∀ rest, micro { s with sched := rest } = .go { t with sched := rest }) :
    Plays [.block] s t :=
  plays_move fun rest => by simp [takeMove, microStep, h rest]

theorem plays_serialDone {s : State} (hbusy : s.spiBusy = true) :
    Plays [.serialDone] s { s with spiBusy := false, trace := s.trace ++ [.serial s.spiDr] } :=
  plays_move fun rest => by simp [takeMove, serialDone, hbusy]

end Sys2Proof.Machine
end

section
/-! PROOF. Every interleaving of a SERIAL PAINT that R146 admits occurs (R66): the schedule is built slot by slot, the
overlap of slot `i` taken by giving the block its turn before or after the completion of byte `i`. -/

namespace Sys2Proof.Machine

/-! ### The micro-steps P_*, as equations -/

theorem microPFetch_eq {s : State} (hn : s.ftIdx < s.cfg.frameLen) (hl : s.ftIdx < s.fbLen) :
    microPFetch s = .go { s with
      lat := frameByte s.clr s.fb s.ftIdx, trace := s.trace ++ frameRead s.clr s.fb s.ftIdx, seq := .pSend } := by
  cases hc : s.clr with
  | true => simp [microPFetch, nextPixel_clear, hc, frameByte, frameRead]
  | false => simp [microPFetch, nextPixel_read, hc, fbRead, hn, hl, frameByte, frameRead, State.emit]

theorem microPSend_eq {s : State} (hready : s.busReady = true) (hidle : s.spiBusy = false) :
    microPSend s = .go { s with
      spiDr := s.lat, spiBusy := true, ftIdx := s.ftIdx + 1
      seq := if s.ftIdx + 1 < s.cfg.frameLen then .pFetch else .pDrain } := by
  simp [microPSend, xferStart, hready, hidle]

theorem microPDrain_eq {s : State} (hidle : s.spiBusy = false) : microPDrain s = .go (finishPaint s) := by
  simp [microPDrain, hidle]

theorem micro_of_pFetch {s : State} (h : s.seq = .pFetch) : micro s = microPFetch s := by simp [micro, h]
theorem micro_of_pSend {s : State} (h : s.seq = .pSend) : micro s = microPSend s := by simp [micro, h]
theorem micro_of_pDrain {s : State} (h : s.seq = .pDrain) : micro s = microPDrain s := by simp [micro, h]

theorem plays_pFetch {s : State} (hq : s.seq = .pFetch) (hn : s.ftIdx < s.cfg.frameLen) (hl : s.ftIdx < s.fbLen) :
    Plays [.block] s { s with
      lat := frameByte s.clr s.fb s.ftIdx, trace := s.trace ++ frameRead s.clr s.fb s.ftIdx, seq := .pSend } :=
  plays_block fun rest => (micro_of_pFetch (s := { s with sched := rest }) hq).trans (microPFetch_eq hn hl)

theorem plays_pSend {s : State} (hq : s.seq = .pSend) (hready : s.busReady = true) (hidle : s.spiBusy = false) :
    Plays [.block] s { s with
      spiDr := s.lat, spiBusy := true, ftIdx := s.ftIdx + 1
      seq := if s.ftIdx + 1 < s.cfg.frameLen then .pFetch else .pDrain } :=
  plays_block fun rest => (micro_of_pSend (s := { s with sched := rest }) hq).trans (microPSend_eq hready hidle)

theorem plays_pDrain {s : State} (hq : s.seq = .pDrain) (hidle : s.spiBusy = false) :
    Plays [.block] s (finishPaint s) :=
  plays_block fun rest => (micro_of_pDrain (s := { s with sched := rest }) hq).trans (microPDrain_eq hidle)

/-! ### The slots of the frame -/

/-- The moves of slot `i` of a frame of `n` bytes: byte `i` is started and completed, and the block fetches the next byte
(or drains, after the last), before the completion where the overlap is taken (R66). -/
def slotMoves (n : Nat) (early : Nat → Bool) (i : Nat) : List Move :=
  if i + 1 < n ∧ early i = true then [.block, .block, .serialDone] else [.block, .serialDone, .block]

/-- The moves of a whole PAINT: the first fetch, then the slots. -/
def paintMoves (n : Nat) (early : Nat → Bool) : List Move := .block :: (List.range n).flatMap (slotMoves n early)

theorem slotMoves_quiet (n : Nat) (early : Nat → Bool) (i : Nat) : (slotMoves n early i).all Move.quiet = true := by
  unfold slotMoves
  split <;> rfl

theorem paintMoves_quiet (n : Nat) (early : Nat → Bool) : (paintMoves n early).all Move.quiet = true := by
  simp [paintMoves, Move.quiet, List.all_flatMap, slotMoves_quiet]

/-- A PAINT begun in `s`, about to send byte `i`: `dr` is in the data register and `es` is appended so far. -/
def sendingByte (s : State) (clear : Bool) (i : Nat) (dr : Byte) (es : List Event) : State :=
  { s with
    seq := .pSend
    clr := clear
    ftIdx := i
    lat := frameByte clear s.fb i
    spiDr := dr
    trace := s.trace ++ es }

/-- The end of the last slot is the end state of R147. -/
theorem finishPaint_lastByte {s : State} (clear : Bool) (early : Nat → Bool) (hseq : s.seq = .ready) :
    finishPaint { sendingByte s clear (s.cfg.frameLen - 1) (frameByte clear s.fb (s.cfg.frameLen - 1))
        (serialFrameEvents clear s.fb s.cfg.frameLen early) with seq := .pDrain, ftIdx := s.cfg.frameLen } =
      serialPaintDone s clear early s.sched := by
  simp only [serialPaintDone, hseq]
  rfl

section Slots

variable {s : State} {clear : Bool} (early : Nat → Bool)
variable (hready : s.busReady = true) (hidle : s.spiBusy = false)

include hready hidle

/-- The last slot: the last byte is sent, and the PAINT completes. -/
theorem plays_lastSlot {m : Nat} (hm : m + 1 = s.cfg.frameLen) (dr : Byte) (es : List Event) :
    Plays (slotMoves s.cfg.frameLen early m) (sendingByte s clear m dr es)
      (finishPaint { sendingByte s clear m (frameByte clear s.fb m)
        (es ++ serialSlot clear s.fb s.cfg.frameLen early m) with seq := .pDrain, ftIdx := s.cfg.frameLen }) := by
  have hseq : (if m + 1 < s.cfg.frameLen then MicroState.pFetch else .pDrain) = .pDrain := if_neg (by omega)
  have hsend := plays_pSend (s := sendingByte s clear m dr es) rfl hready hidle
  have hdone := hsend.append (plays_serialDone rfl)
  have hdrain := hdone.append (plays_pDrain hseq rfl)
  simpa [slotMoves, serialSlot, sendingByte, finishPaint, hm, hidle] using hdrain

variable (hlen : s.cfg.frameLen ≤ s.fbLen)

include hlen

/-- A slot before the last, whether its overlap is taken or not. -/
theorem plays_slot {i : Nat} (hi : i + 1 < s.cfg.frameLen) (dr : Byte) (es : List Event) :
    Plays (slotMoves s.cfg.frameLen early i) (sendingByte s clear i dr es)
      (sendingByte s clear (i + 1) (frameByte clear s.fb i)
        (es ++ serialSlot clear s.fb s.cfg.frameLen early i)) := by
  have hsend := plays_pSend (s := sendingByte s clear i dr es) rfl hready hidle
  have hseq : (if i + 1 < s.cfg.frameLen then MicroState.pFetch else .pDrain) = .pFetch := if_pos hi
  have hnext : i + 1 < s.fbLen := Nat.lt_of_lt_of_le hi hlen
  cases he : early i with
  | true =>
    have hfetch := hsend.append (plays_pFetch hseq hi hnext)
    have hdone := hfetch.append (plays_serialDone rfl)
    simpa [slotMoves, serialSlot, sendingByte, hi, he, hidle] using hdone
  | false =>
    have hdone := hsend.append (plays_serialDone rfl)
    have hfetch := hdone.append (plays_pFetch hseq hi hnext)
    simpa [slotMoves, serialSlot, sendingByte, hi, he, hidle] using hfetch

/-- The first `m` slots, short of the last one. -/
theorem plays_slots {m : Nat} (hm : m < s.cfg.frameLen) (dr : Byte) (es : List Event) :
    ∃ dr', Plays ((List.range m).flatMap (slotMoves s.cfg.frameLen early)) (sendingByte s clear 0 dr es)
      (sendingByte s clear m dr' (es ++ (List.range m).flatMap (serialSlot clear s.fb s.cfg.frameLen early))) := by
  induction m with
  | zero => exact ⟨dr, by simpa using Plays.nil _⟩
  | succ m ih =>
    obtain ⟨dr', hslots⟩ := ih (Nat.lt_of_succ_lt hm)
    have hslot := hslots.append (plays_slot early hready hidle hlen hm _ _)
    exact ⟨_, by simpa [List.range_succ] using hslot⟩

/-- A whole PAINT, from its acceptance to its end state. -/
theorem plays_paint (hseq : s.seq = .ready) (hpos : 1 ≤ s.cfg.frameLen) :
    Plays (paintMoves s.cfg.frameLen early) { s with clr := clear, ftIdx := 0, seq := .pFetch }
      (serialPaintDone s clear early s.sched) := by
  obtain ⟨m, hm⟩ : ∃ m, m + 1 = s.cfg.frameLen := ⟨_, Nat.sub_add_cancel hpos⟩
  have hfetch : Plays [.block] { s with clr := clear, ftIdx := 0, seq := .pFetch }
      (sendingByte s clear 0 s.spiDr (frameRead clear s.fb 0)) := plays_pFetch rfl hpos (Nat.lt_of_lt_of_le hpos hlen)
  obtain ⟨dr, hslots⟩ := plays_slots early hready hidle hlen (by omega : m < s.cfg.frameLen) s.spiDr
    (frameRead clear s.fb 0)
  have hpaint := hfetch.append (hslots.append (plays_lastSlot early hready hidle hm dr _))
  rw [← finishPaint_lastByte clear early hseq]
  simpa [paintMoves, serialFrameEvents, ← hm, List.range_succ] using hpaint

end Slots

theorem execPaint_serial {s : State} {clear : Bool} (hq : s.seq = .ready) (hs : s.cfg.transport = .serial)
    (hlen : s.cfg.frameLen ≤ s.fbLen) :
    execPaint clear s = .next { s with clr := clear, ftIdx := 0, seq := .pFetch } := by
  rw [execPaint, acceptReady_ready hq, if_neg (Nat.not_lt.mpr hlen), hs, paintStart]

/-- Settles O29: the schedule of `paintMoves`, one slot for each byte, realises the chosen overlaps. -/
theorem everySerialInterleavingOccurs : Obligations.EverySerialInterleavingOccurs := by
  unfold Obligations.EverySerialInterleavingOccurs
  intro s clear early hinv hq hs hlen
  obtain ⟨hwf, -⟩ := State.inv_iff.mp hinv
  obtain ⟨hready, hidle, -⟩ := State.inv_bus_of_ready hinv hq
  have hpaint := plays_paint (clear := clear) early hready hidle hlen hq (cfg_frameLen_pos hwf)
  exact ⟨paintMoves s.cfg.frameLen early, _, _, paintMoves_quiet _ early, execPaint_serial hq hs hlen,
    hpaint.run_length, rfl⟩

end Sys2Proof.Machine
end

section
/-! SUPPORT. The one state in which each operation is accepted (R21). -/

namespace Sys2Proof.Machine

/-- The state an accepted operation leads to. -/
def acceptState (i : Instr) (s : State) : State :=
  match i with
  | .boot => s.goto .b1Pins
  | .paint clear => { s with clr := clear, ftIdx := 0, seq := paintStart s.cfg.transport }
  | .setpwr b => startCommand s (cmdRom s.cfg .pwr b) (.flag .pwr b)
  | .setinv b => startCommand s (cmdRom s.cfg .inv b) (.flag .inv b)
  | .setallon b => startCommand s (cmdRom s.cfg .allon b) (.flag .allon b)
  | .setfliph b => startCommand s (cmdRom s.cfg .fliph b) (.flag .fliph b)
  | .setflipv b => startCommand s (cmdRom s.cfg .flipv b) (.flag .flipv b)
  | .idle => enterSleep s
  | .setind ch v => setIndicator ch.toNat v s
  | .exithalt => s.goto .xIrq
  | .sendcmd k => startCommand s k .raw
  | .entercmd => (s.enterMode .command).goto .ready
  | .enterdata => (s.enterMode .data).goto .ready

theorem execBoot_next {s t : State} (h : execBoot s = .next t) : t = s.goto .b1Pins := by
  unfold execBoot at h
  split at h
  · cases h; rfl
  · split at h <;> cases h

theorem execPaint_next {clear : Bool} {s t : State} (h : execPaint clear s = .next t) :
    t = { s with clr := clear, ftIdx := 0, seq := paintStart s.cfg.transport } := by
  obtain ⟨-, h⟩ := acceptReady_eq_next.mp h
  split at h <;> cases h
  rfl

theorem execSetind_next {ch : BitVec 4} {v : Byte} {s t : State} (h : execSetind ch v s = .next t) :
    t = setIndicator ch.toNat v s := by
  unfold execSetind at h
  split at h
  · obtain ⟨-, ⟨⟩⟩ := acceptReady_eq_next.mp h
    rfl
  · cases h

theorem execExithalt_next {s t : State} (h : execExithalt s = .next t) : t = s.goto .xIrq := by
  unfold execExithalt at h
  split at h <;> cases h
  rfl

/-- An operation that is not refused leads to its one state. -/
theorem exec_next {i : Instr} {s t : State} (h : exec i s = .next t) : t = acceptState i s := by
  cases i with
  | boot => exact execBoot_next h
  | paint clear => exact execPaint_next h
  | setind ch v => exact execSetind_next h
  | exithalt => exact execExithalt_next h
  | setpwr | setinv | setallon | setfliph | setflipv | idle | sendcmd | entercmd | enterdata =>
    obtain ⟨-, ⟨⟩⟩ := acceptReady_eq_next.mp h
    rfl

end Sys2Proof.Machine
end

section
/-! PROOF. What the block's own micro-step does to the data register and to the trace, said once for every micro-state
(R22, R27, R65); from it the one byte in flight (R65) and the length rule of FB (R72). -/

namespace Sys2Proof.Machine

/-! ### One micro-step of the block -/

/-- The events a micro-step taken in `s` may append: never a byte or a batch on the bus, which are the environment's
(R98, R103); a read of FB only of an index below `N`, in a PAINT of the buffer (R22, R52). -/
def State.mayEmit (s : State) (e : Event) : Prop :=
  match e with
  | .serial _ => False
  | .batch _ _ => False
  | .fbRead i v => s.painting = true ∧ s.clr = false ∧ i < s.cfg.frameLen ∧ v = s.fb.read i
  | _ => True

/-- What every micro-step from `s` to `t` keeps: a byte in flight stays in the data register (R65), and the trace goes on
with at most two events, all of them the block's to emit (R27). -/
def State.BlockStep (s t : State) : Prop :=
  (s.spiBusy = true → t.spiDr = s.spiDr) ∧
    (t.trace = s.trace ∨ (∃ e, s.mayEmit e ∧ t.trace = s.trace ++ [e]) ∨
      ∃ e e', s.mayEmit e ∧ s.mayEmit e' ∧ t.trace = s.trace ++ [e, e'])

theorem State.blockStep_silent {s t : State} (hdr : s.spiBusy = true → t.spiDr = s.spiDr) (htr : t.trace = s.trace) :
    s.BlockStep t :=
  ⟨hdr, .inl htr⟩

theorem State.blockStep_emit {s t : State} {e : Event} (he : s.mayEmit e)
    (hdr : s.spiBusy = true → t.spiDr = s.spiDr) (htr : t.trace = s.trace ++ [e]) : s.BlockStep t :=
  ⟨hdr, .inr (.inl ⟨e, he, htr⟩)⟩

@[simp] theorem initBus_spiDr (s : State) : (initBus s).spiDr = s.spiDr := by unfold initBus; split <;> rfl

theorem initBus_trace (s : State) : (initBus s).trace = s.trace ++ [.busInit s.cfg.transport] := by
  unfold initBus; split <;> simp [*]

theorem enterMode_blockStep {s t : State} (m : LinkMode) (hdr : t.spiDr = s.spiDr)
    (htr : t.trace = (s.enterMode m).trace) : s.BlockStep t := by
  cases htp : s.cfg.transport with
  | serial =>
    rw [s.enterMode_serial m htp] at htr
    exact State.blockStep_emit (e := .pin (.dc m)) trivial (fun _ => hdr) htr
  | batched =>
    rw [s.enterMode_batched m htp] at htr
    exact State.blockStep_silent (fun _ => hdr) htr

theorem microB1Safe_blockStep (s : State) : (microB1Safe s).Ensures s.BlockStep := by
  unfold microB1Safe
  split
  · refine Micro.ensures_go.mpr ⟨fun _ => rfl, .inr (.inr ⟨_, _, ?_, ?_, List.append_assoc ..⟩)⟩ <;> trivial
  · exact Micro.ensures_go.mpr (State.blockStep_emit (e := .button s.btnConfirm) trivial (fun _ => rfl) rfl)

theorem startBootByte_blockStep (b : Byte) (s : State) : (startBootByte b s).Ensures s.BlockStep := by
  unfold startBootByte
  split <;> simp +contextual [State.BlockStep]

theorem microB5Prog_blockStep (s : State) : (microB5Prog s).Ensures s.BlockStep := by
  unfold microB5Prog
  refine ensures_await.mpr fun _ => ?_
  split
  · exact startBootByte_blockStep _ s
  · simp [State.BlockStep]

theorem microCEnter_blockStep (s : State) : (microCEnter s).Ensures s.BlockStep := by
  unfold microCEnter
  split
  · exact Micro.ensures_go.mpr (enterMode_blockStep .command (by simp) rfl)
  · simp only [Micro.ensures_andThen, txBegin_ensures, txWrite_ensures, Micro.ensures_go]
    intros
    exact enterMode_blockStep .command (by simp) rfl

theorem microCSend_blockStep (s : State) : (microCSend s).Ensures s.BlockStep := by
  unfold microCSend
  split <;> simp +contextual [State.BlockStep]

theorem finishCommand_blockStep (s : State) : s.BlockStep (finishCommand s) :=
  enterMode_blockStep .data (s.enterMode_spiDr .data) rfl

theorem microCRestore_blockStep (s : State) : (microCRestore s).Ensures s.BlockStep := by
  unfold microCRestore
  split <;> exact ensures_await.mpr fun _ => Micro.ensures_go.mpr (finishCommand_blockStep s)

/-- The read of the next frame byte, in a PAINT (R143, R145). -/
theorem nextPixel_blockStep {s : State} {k : Byte → State → Micro} (hp : s.painting = true)
    (hk : ∀ v t, t.spiDr = s.spiDr → (k v t).Ensures fun u => u.spiDr = s.spiDr ∧ u.trace = t.trace) :
    (nextPixel s k).Ensures s.BlockStep := by
  refine nextPixel_ensures.mpr ⟨fun _ u hu => ?_, fun hc => fbRead_ensures.mpr fun hn _ u hu => ?_⟩
  · obtain ⟨hdr, htr⟩ := hk _ s rfl u hu
    exact State.blockStep_silent (fun _ => hdr) htr
  · obtain ⟨hdr, htr⟩ := hk _ (s.emit _) rfl u hu
    exact State.blockStep_emit (e := .fbRead s.ftIdx (s.fb.read s.ftIdx)) ⟨hp, hc, hn, rfl⟩ (fun _ => hdr) htr

theorem microQFill_blockStep {s : State} (hp : s.painting = true) : (microQFill s).Ensures s.BlockStep := by
  unfold microQFill
  split
  · exact nextPixel_blockStep hp fun v t ht => by simp [ht]
  · simp [State.BlockStep]

theorem microQClose_blockStep (s : State) : (microQClose s).Ensures s.BlockStep := by
  unfold microQClose
  split
  · simp [State.BlockStep]
  · refine ensures_await.mpr fun _ => ?_
    split <;> simp [State.BlockStep, finishPaint]

/-- One case for each micro-state of R31. -/
theorem micro_blockStep (s : State) : (micro s).Ensures s.BlockStep := by
  unfold micro
  cases hq : s.seq with
  | wBoot | ready | iSleep | hSafe | hLoader => exact Micro.ensures_wait
  | b1Pins => simp [microB1Pins, State.BlockStep, State.mayEmit]
  | b1Safe => exact microB1Safe_blockStep s
  | b2Bus => simp [microB2Bus, initBus_trace, State.BlockStep, State.mayEmit]
  | b3RstLo => simp [microB3RstLo, State.BlockStep, State.mayEmit]
  | b3Hold => simp [microB3Hold, State.BlockStep, State.mayEmit]
  | b3RstHi => simp [microB3RstHi, State.BlockStep, State.mayEmit]
  | b3Settle => simp [microB3Settle, State.BlockStep, State.mayEmit]
  | b4Cs => simp [microB4Cs, State.BlockStep, State.mayEmit]
  | b5Cmd => exact Micro.ensures_go.mpr (enterMode_blockStep .command (by simp) rfl)
  | b5Prog => exact microB5Prog_blockStep s
  | b6Data => exact Micro.ensures_go.mpr (enterMode_blockStep .data (by simp) rfl)
  | b7Pwr => simp [microB7Pwr, State.BlockStep, State.mayEmit]
  | cEnter => exact microCEnter_blockStep s
  | cSend => exact microCSend_blockStep s
  | cRestore => exact microCRestore_blockStep s
  | pFetch => exact nextPixel_blockStep (by simp [State.painting, hq]) fun v t ht => by simp [ht]
  | pSend => simp +contextual [microPSend, State.BlockStep]
  | pDrain => simp [microPDrain, finishPaint, State.BlockStep]
  | qOpen => simp [microQOpen, State.BlockStep]
  | qFill => exact microQFill_blockStep (by simp [State.painting, hq])
  | qClose => exact microQClose_blockStep s
  | xIrq => simp [microXIrq, State.BlockStep, State.mayEmit]
  | xLink => simp [microXLink, State.BlockStep, State.mayEmit]
  | xHandoff => simp [microXHandoff, enterLoaderHalt, State.BlockStep, State.mayEmit]

theorem microStep_blockStep {s t : State} (h : microStep s = .next t) : s.BlockStep t := by
  obtain hgo | ⟨-, rfl⟩ := Micro.turn_eq_next.mp h
  · exact micro_blockStep s t hgo
  · exact State.blockStep_silent (fun _ => rfl) rfl

/-- A single event appended by a micro-step is one the block may emit. -/
theorem State.BlockStep.mayEmit {s t : State} {e : Event} (h : s.BlockStep t) (he : t.trace = s.trace ++ [e]) :
    s.mayEmit e := by
  obtain ⟨-, htr | ⟨e', he', htr⟩ | ⟨e', e'', -, -, htr⟩⟩ := h
  · simp [htr] at he
  · obtain rfl : e' = e := by simpa [htr] using he
    exact he'
  · simp [htr] at he

/-! ### The length of FB (R72) -/

theorem execPaint_short {s : State} {clear : Bool} (hq : s.seq = .ready) (hlen : s.fbLen < s.cfg.frameLen) :
    execPaint clear s = .refused .fbTooShort := by
  rw [execPaint, acceptReady_ready hq, if_pos hlen]

/-- Settles O34: acceptance compares the two lengths, and a read the block emits is of an index below `N`. -/
theorem frameBufferLengthRule : Obligations.FrameBufferLengthRule := by
  unfold Obligations.FrameBufferLengthRule
  refine ⟨fun s b hq hlen => execPaint_short hq hlen, fun s t i v hstep htrace => ?_⟩
  obtain ⟨-, -, hi, hv⟩ : s.mayEmit (.fbRead i v) := (microStep_blockStep hstep).mayEmit htrace
  exact ⟨hi, hv⟩

/-! ### One byte in flight (R65) -/

theorem xferStart_busy {s : State} (b : Byte) (hready : s.busReady = true) (hbusy : s.spiBusy = true) :
    xferStart b s = .wait := by
  simp [xferStart, hready, hbusy]

/-- Accepting an operation starts no byte. -/
theorem acceptState_spiDr (i : Instr) (s : State) : (acceptState i s).spiDr = s.spiDr := by
  cases i with
  | entercmd | enterdata => exact s.enterMode_spiDr _
  | boot | paint | setpwr | setinv | setallon | setfliph | setflipv | idle | setind | exithalt | sendcmd => rfl

theorem takeMove_spiDr {m : Move} {s t : State} (h : takeMove exec m s = .next t) (hs : s.spiBusy = true)
    (ht : t.spiBusy = true) : t.spiDr = s.spiDr := by
  cases m with
  | block =>
    obtain ⟨hdr, -⟩ := microStep_blockStep h
    exact hdr hs
  | present w =>
    obtain ⟨i, -, hi⟩ := presentWord_eq_next.mp h
    rw [exec_next hi]
    exact acceptState_spiDr i s
  | fbWrite i v =>
    obtain ⟨-, -, rfl⟩ := hostFbWrite_eq_next.mp h
    rfl
  | fbSupply bs =>
    obtain ⟨-, rfl⟩ := hostFbSupply_eq_next.mp h
    rfl
  | platform i l =>
    obtain ⟨-, rfl⟩ := platformSet_eq_next.mp h
    rfl
  | serialDone =>
    cases h
    obtain ⟨-, hd⟩ | ⟨-, hd⟩ := serialDone_cases s <;> rw [hd]
  | batchDone =>
    cases h
    obtain ⟨-, hd⟩ | ⟨-, hd⟩ := batchDone_cases s <;> rw [hd]
  | irq =>
    cases h
    obtain ⟨-, -, hw⟩ | ⟨-, hw⟩ := wake_cases s <;> rw [hw]
  | button held => cases h; rfl
  | foreignDrive => cases h
  | reset p => cases h; cases ht

theorem step_spiDr {s t : State} (h : step s = .next t) (hs : s.spiBusy = true) (ht : t.spiBusy = true) :
    t.spiDr = s.spiDr := by
  obtain ⟨-, hblock⟩ | ⟨m, rest, -, hmove⟩ := step_cases h
  · obtain ⟨hdr, -⟩ := microStep_blockStep hblock
    exact hdr hs
  · have hdr := takeMove_spiDr hmove hs ht
    exact hdr

/-- Settles O43: a start waits for the shifter, and no move overwrites the data register of a byte in flight: only a reset
does, which leaves none. -/
theorem oneByteInFlight : Obligations.OneByteInFlight := by
  unfold Obligations.OneByteInFlight
  exact ⟨fun s b hready hbusy => xferStart_busy b hready hbusy, fun s t _ hstep hs ht => step_spiDr hstep hs ht⟩

end Sys2Proof.Machine
end

section
/-! PROOF. The host's writes of FB (R51, R71, R175): between PAINTs with their effect, during one refused. -/

namespace Sys2Proof.Machine

theorem hostFbWrite_painting {s : State} (i : Nat) (v : Byte) (h : s.painting = true) :
    hostFbWrite i v s = .refused .fbBusy := by
  simp [hostFbWrite, h]

theorem hostFbSupply_painting {s : State} (bs : List Byte) (h : s.painting = true) :
    hostFbSupply bs s = .refused .fbBusy := by
  simp [hostFbSupply, h]

theorem hostFbWrite_outside {s : State} {i : Nat} (v : Byte) (hp : s.painting = false) (hi : s.fbLen ≤ i) :
    hostFbWrite i v s = .refused .fbOutOfRange := by
  simp [hostFbWrite, hp, hi]

/-- A supplied buffer reads as its bytes. -/
theorem read_ofBytes_of_getElem? {bs : List Byte} {a : Nat} {v : Byte} (h : bs[a]? = some v) :
    (Memory.ofBytes bs).read a = v := by
  rw [Memory.read_ofBytes, List.getD_eq_getElem?_getD, h, Option.getD_some]

/-- Settles O55: each host move is taken off the schedule and answered by `hostFbWrite` or `hostFbSupply`; the canonical
form of FB gives the byte read back. -/
theorem hostWritesBetweenPaintsOnly : Obligations.HostWritesBetweenPaintsOnly := by
  unfold Obligations.HostWritesBetweenPaintsOnly
  refine ⟨fun s i v rest hinv hsched hp hi => ?_, fun s bs rest hsched hp => ?_, fun s i v rest hsched hp => ?_,
    fun s bs rest hsched hp => ?_, fun s i v rest hsched hp hi => ?_⟩
  · obtain ⟨-, hfb, -⟩ := State.inv_iff.mp hinv
    exact ⟨_, (step_cons hsched).trans (hostFbWrite_eq_next.mpr ⟨hp, hi, rfl⟩), Memory.read_write_same i v hfb,
      fun a ha => Memory.read_write_other ha, rfl⟩
  · exact ⟨_, (step_cons hsched).trans (hostFbSupply_eq_next.mpr ⟨hp, rfl⟩), fun a v => read_ofBytes_of_getElem?, rfl⟩
  · exact (step_cons hsched).trans (hostFbWrite_painting i v hp)
  · exact (step_cons hsched).trans (hostFbSupply_painting bs hp)
  · exact (step_cons hsched).trans (hostFbWrite_outside v hp hi)

end Sys2Proof.Machine
end

section
/-! SUPPORT. The fields of an operation word, the formats of R77, and `decode` and `encode` as inverses of each other
(R76 to R79, D24). -/

namespace Sys2Proof

/-! ### The fields of a word (R76) -/

@[simp] theorem opcodeOf_packWord (op sel : BitVec 4) (imm : Byte) : opcodeOf (packWord op sel imm) = op :=
  calc opcodeOf (packWord op sel imm)
    _ = (op ++ sel).extractLsb' 4 4 := BitVec.extractLsb'_append_eq_of_le (xhi := op ++ sel) (xlo := imm) (by omega)
    _ = op := BitVec.extractLsb'_append_eq_left

@[simp] theorem selOf_packWord (op sel : BitVec 4) (imm : Byte) : selOf (packWord op sel imm) = sel :=
  calc selOf (packWord op sel imm)
    _ = (op ++ sel).extractLsb' 0 4 := BitVec.extractLsb'_append_eq_of_le (xhi := op ++ sel) (xlo := imm) (by omega)
    _ = sel.extractLsb' 0 4 := BitVec.extractLsb'_append_eq_of_add_le (by omega)
    _ = sel := BitVec.extractLsb'_eq_self

@[simp] theorem immOf_packWord (op sel : BitVec 4) (imm : Byte) : immOf (packWord op sel imm) = imm :=
  calc immOf (packWord op sel imm)
    _ = imm.extractLsb' 0 8 := BitVec.extractLsb'_append_eq_of_add_le (xhi := op ++ sel) (xlo := imm) (by omega)
    _ = imm := BitVec.extractLsb'_eq_self

theorem packWord_fields (w : OpWord) : packWord (opcodeOf w) (selOf w) (immOf w) = w :=
  calc packWord (opcodeOf w) (selOf w) (immOf w)
    _ = w.extractLsb' 8 8 ++ w.extractLsb' 0 8 :=
      congrArg (· ++ w.extractLsb' 0 8)
        (BitVec.extractLsb'_append_extractLsb'_eq_extractLsb' (x := w) (len₂ := 4) (start₁ := 8) (len₁ := 4) rfl)
    _ = w.extractLsb' 0 16 := BitVec.extractLsb'_append_extractLsb'_eq_extractLsb' rfl
    _ = w := BitVec.extractLsb'_eq_self

/-! ### The formats Z, F and B (R77) -/

@[simp] theorem boolImm_bit (b : Bool) : (boolImm b)[0] = b := by cases b <;> rfl

theorem boolImm_toNat_lt_two (b : Bool) : (boolImm b).toNat < 2 := by cases b <;> decide

/-- The bits `imm8[7:1]` are zero exactly when `imm8` is a Boolean in bit 0. -/
theorem upperBits_eq_zero_iff {imm : Byte} : imm.extractLsb' 1 7 = 0#7 ↔ ∃ b, imm = boolImm b := by
  constructor
  · intro h
    have hn : imm.toNat / 2 % 128 = 0 := by simpa [BitVec.toNat_eq, Nat.shiftRight_eq_div_pow] using h
    obtain h0 | h1 : imm.toNat = 0 ∨ imm.toNat = 1 := by omega
    · exact ⟨false, BitVec.eq_of_toNat_eq h0⟩
    · exact ⟨true, BitVec.eq_of_toNat_eq h1⟩
  · rintro ⟨b, rfl⟩
    cases b <;> rfl

@[simp] theorem boolImm_upperBits (b : Bool) : (boolImm b).extractLsb' 1 7 = 0#7 :=
  upperBits_eq_zero_iff.mpr ⟨b, rfl⟩

@[simp] theorem decodeZ_zero (i : Instr) : decodeZ i 0#4 0#8 = .ok i := rfl
@[simp] theorem decodeF_boolImm (op : Bool → Instr) (b : Bool) : decodeF op 0#4 (boolImm b) = .ok (op b) := by
  simp [decodeF]
@[simp] theorem decodeB_zero (op : Byte → Instr) (k : Byte) : decodeB op 0#4 k = .ok (op k) := rfl

theorem decodeZ_eq_ok {i j : Instr} {sel : BitVec 4} {imm : Byte} :
    decodeZ i sel imm = .ok j ↔ sel = 0#4 ∧ imm = 0#8 ∧ i = j := by
  unfold decodeZ
  split
  next hsel => simp [hsel]
  next hsel =>
    split
    next himm => simp [himm]
    next himm => simp [Decidable.not_not.mp hsel, Decidable.not_not.mp himm]

theorem decodeF_eq_ok {op : Bool → Instr} {j : Instr} {sel : BitVec 4} {imm : Byte} :
    decodeF op sel imm = .ok j ↔ sel = 0#4 ∧ ∃ b, imm = boolImm b ∧ op b = j := by
  constructor
  · intro h
    unfold decodeF at h
    split at h
    · cases h
    · rename_i hsel
      split at h
      · cases h
      · rename_i himm
        obtain ⟨b, rfl⟩ := upperBits_eq_zero_iff.mp (Decidable.not_not.mp himm)
        exact ⟨Decidable.not_not.mp hsel, b, rfl, by simpa using h⟩
  · rintro ⟨rfl, b, rfl, rfl⟩
    exact decodeF_boolImm op b

theorem decodeB_eq_ok {op : Byte → Instr} {j : Instr} {sel : BitVec 4} {imm : Byte} :
    decodeB op sel imm = .ok j ↔ sel = 0#4 ∧ op imm = j := by
  unfold decodeB
  split <;> simp_all

/-! ### The decoder reads what the encoder writes -/

theorem decode_encode (i : Instr) : decode (encode i) = .ok i := by
  cases i with
  | boot | idle | exithalt | entercmd | enterdata => rfl
  | paint | setpwr | setinv | setallon | setfliph | setflipv | setind | sendcmd => simp [decode, encode]

/-! ### Each word that decodes is the operation's one word (R77, D24) -/

/-- A word is given by its three fields (R76). -/
theorem packWord_eq {w : OpWord} {op sel : BitVec 4} {imm : Byte} (hop : opcodeOf w = op) (hsel : selOf w = sel)
    (himm : immOf w = imm) : packWord op sel imm = w := by
  rw [← packWord_fields w, hop, hsel, himm]

theorem opcodeOf_eq_ofNat {w : OpWord} {n : Nat} (h : (opcodeOf w).toNat = n) : opcodeOf w = BitVec.ofNat 4 n := by
  rw [← h, BitVec.ofNat_toNat, BitVec.setWidth_eq]

section Formats

variable {w : OpWord} {op : BitVec 4} {j : Instr} (hop : opcodeOf w = op)

include hop

theorem encode_of_decodeZ {i : Instr} (h : decodeZ i (selOf w) (immOf w) = .ok j)
    (hi : encode i = packWord op 0#4 0#8) : encode j = w := by
  obtain ⟨hsel, himm, rfl⟩ := decodeZ_eq_ok.mp h
  exact hi.trans (packWord_eq hop hsel himm)

theorem encode_of_decodeF {i : Bool → Instr} (h : decodeF i (selOf w) (immOf w) = .ok j)
    (hi : ∀ b, encode (i b) = packWord op 0#4 (boolImm b)) : encode j = w := by
  obtain ⟨hsel, b, himm, rfl⟩ := decodeF_eq_ok.mp h
  exact (hi b).trans (packWord_eq hop hsel himm)

theorem encode_of_decodeB {i : Byte → Instr} (h : decodeB i (selOf w) (immOf w) = .ok j)
    (hi : ∀ k, encode (i k) = packWord op 0#4 k) : encode j = w := by
  obtain ⟨hsel, rfl⟩ := decodeB_eq_ok.mp h
  exact (hi _).trans (packWord_eq hop hsel rfl)

end Formats

/-- One case for each row of the opcode map (R79), by the row's format. -/
theorem encode_of_decode {w : OpWord} {i : Instr} (h : decode w = .ok i) : encode i = w := by
  unfold decode at h
  split at h
  case h_1 hop | h_8 hop | h_10 hop | h_12 hop | h_13 hop => exact encode_of_decodeZ (opcodeOf_eq_ofNat hop) h rfl
  case h_2 hop | h_3 hop | h_4 hop | h_5 hop | h_6 hop | h_7 hop =>
    exact encode_of_decodeF (opcodeOf_eq_ofNat hop) h fun _ => rfl
  case h_9 hop =>
    cases h
    exact packWord_eq (opcodeOf_eq_ofNat hop) rfl rfl
  case h_11 hop => exact encode_of_decodeB (opcodeOf_eq_ofNat hop) h fun _ => rfl
  case h_14 => cases h

theorem decode_eq_ok_iff {w : OpWord} {i : Instr} : decode w = .ok i ↔ w = encode i :=
  ⟨fun h => (encode_of_decode h).symm, fun h => h ▸ decode_encode i⟩

theorem encode_injective : Function.Injective encode := fun i j h =>
  Decoded.ok.inj ((decode_encode i).symm.trans (h ▸ decode_encode j))

end Sys2Proof
end

section
/-! PROOF. Decode and encode (R76 to R79, D24). -/

namespace Sys2Proof

/-- Settles O1: case by case of the operation, its fields read back. -/
theorem decodeOfEncodeIsTheOperation : Obligations.DecodeOfEncodeIsTheOperation := by
  unfold Obligations.DecodeOfEncodeIsTheOperation
  exact decode_encode

/-- Settles O2: a word that decodes has the fields of the operation's word. -/
theorem encodeOfDecodedIsTheWord : Obligations.EncodeOfDecodedIsTheWord := by
  unfold Obligations.EncodeOfDecodedIsTheWord
  exact fun _ _ => encode_of_decode

end Sys2Proof
end

section
/-! PROOF. The decoder and the opcode table (R79, R81): a word selects a row exactly when it is the word of an operation
with the row's mnemonic. -/

namespace Sys2Proof

/-! ### A selected word, by the format of the row -/

section Rows

variable {w : OpWord} {m : String} {op : BitVec 4}

/-- The fields of a word that selects a row, under the mask of the row's format (R81). -/
theorem fields_of_selects {fmt : WordFormat} (h : (OpRow.mk m fmt (packWord op 0#4 0#8)).selects w = true) :
    opcodeOf w = op ∧ selOf w &&& selOf fmt.mask = 0#4 ∧ immOf w &&& immOf fmt.mask = 0#8 := by
  have hw : w &&& fmt.mask = packWord op 0#4 0#8 := by simpa [OpRow.selects] using h
  have hop : opcodeOf w &&& opcodeOf fmt.mask = op := by
    rw [← opcodeOf_packWord op 0#4 0#8, ← hw]
    exact BitVec.extractLsb'_and.symm
  have hmask : opcodeOf fmt.mask = BitVec.allOnes 4 := by cases fmt <;> rfl
  refine ⟨?_, ?_, ?_⟩
  · rwa [hmask, BitVec.and_allOnes] at hop
  · rw [← selOf_packWord op 0#4 0#8, ← hw]
    exact BitVec.extractLsb'_and.symm
  · rw [← immOf_packWord op 0#4 0#8, ← hw]
    exact BitVec.extractLsb'_and.symm

theorem encode_of_selectsZ (i : Instr) (hi : encode i = packWord op 0#4 0#8) (hm : i.mnemonic = m)
    (h : (OpRow.mk m .z (packWord op 0#4 0#8)).selects w = true) : ∃ j, encode j = w ∧ j.mnemonic = m := by
  obtain ⟨hop, hsel, himm⟩ := fields_of_selects h
  have hw := packWord_eq hop (BitVec.and_allOnes.symm.trans hsel) (BitVec.and_allOnes.symm.trans himm)
  exact ⟨i, hi.trans hw, hm⟩

theorem encode_of_selectsF (i : Bool → Instr) (hi : ∀ b, encode (i b) = packWord op 0#4 (boolImm b))
    (hm : ∀ b, (i b).mnemonic = m) (h : (OpRow.mk m .f (packWord op 0#4 0#8)).selects w = true) :
    ∃ j, encode j = w ∧ j.mnemonic = m := by
  obtain ⟨hop, hsel, himm⟩ := fields_of_selects h
  have hupper : (immOf w).extractLsb' 1 7 = 0#7 :=
    calc (immOf w).extractLsb' 1 7
      _ = (immOf w &&& 0xFE#8).extractLsb' 1 7 := (BitVec.extractLsb'_and.trans BitVec.and_allOnes).symm
      _ = (0#8).extractLsb' 1 7 := congrArg (BitVec.extractLsb' 1 7) himm
      _ = 0#7 := rfl
  obtain ⟨b, hb⟩ := upperBits_eq_zero_iff.mp hupper
  exact ⟨i b, (hi b).trans (packWord_eq hop (BitVec.and_allOnes.symm.trans hsel) hb), hm b⟩

theorem encode_of_selectsB (i : Byte → Instr) (hi : ∀ k, encode (i k) = packWord op 0#4 k)
    (hm : ∀ k, (i k).mnemonic = m) (h : (OpRow.mk m .b (packWord op 0#4 0#8)).selects w = true) :
    ∃ j, encode j = w ∧ j.mnemonic = m := by
  obtain ⟨hop, hsel, -⟩ := fields_of_selects h
  exact ⟨i _, (hi _).trans (packWord_eq hop (BitVec.and_allOnes.symm.trans hsel) rfl), hm _⟩

theorem encode_of_selectsC (i : BitVec 4 → Byte → Instr) (hi : ∀ ch v, encode (i ch v) = packWord op ch v)
    (hm : ∀ ch v, (i ch v).mnemonic = m) (h : (OpRow.mk m .c (packWord op 0#4 0#8)).selects w = true) :
    ∃ j, encode j = w ∧ j.mnemonic = m := by
  obtain ⟨hop, -⟩ := fields_of_selects h
  exact ⟨i _ _, (hi _ _).trans (packWord_eq hop rfl rfl), hm _ _⟩

end Rows

/-! ### The thirteen rows (R79) -/

/-- A word that selects a row is the word of an operation with the row's mnemonic. One case for each row. -/
theorem encode_of_selects {r : OpRow} {w : OpWord} (hr : r ∈ opTable) (h : r.selects w = true) :
    ∃ i, encode i = w ∧ i.mnemonic = r.mnemonic := by
  simp only [opTable, List.mem_cons, List.not_mem_nil, or_false] at hr
  rcases hr with rfl | rfl | rfl | rfl | rfl | rfl | rfl | rfl | rfl | rfl | rfl | rfl | rfl
  · exact encode_of_selectsZ .boot rfl rfl h
  · exact encode_of_selectsF .paint (fun _ => rfl) (fun _ => rfl) h
  · exact encode_of_selectsF .setpwr (fun _ => rfl) (fun _ => rfl) h
  · exact encode_of_selectsF .setinv (fun _ => rfl) (fun _ => rfl) h
  · exact encode_of_selectsF .setallon (fun _ => rfl) (fun _ => rfl) h
  · exact encode_of_selectsF .setfliph (fun _ => rfl) (fun _ => rfl) h
  · exact encode_of_selectsF .setflipv (fun _ => rfl) (fun _ => rfl) h
  · exact encode_of_selectsZ .idle rfl rfl h
  · exact encode_of_selectsC .setind (fun _ _ => rfl) (fun _ _ => rfl) h
  · exact encode_of_selectsZ .exithalt rfl rfl h
  · exact encode_of_selectsB .sendcmd (fun _ => rfl) (fun _ => rfl) h
  · exact encode_of_selectsZ .entercmd rfl rfl h
  · exact encode_of_selectsZ .enterdata rfl rfl h

/-- The word of every operation selects the row of its mnemonic. -/
theorem encode_selects (i : Instr) : Laws.OpcodeRow.Statement i := by
  cases i with
  | boot => exact Laws.OpcodeRow.boot
  | paint b => exact Laws.OpcodeRow.paint b
  | setpwr b => exact Laws.OpcodeRow.setpwr b
  | setinv b => exact Laws.OpcodeRow.setinv b
  | setallon b => exact Laws.OpcodeRow.setallon b
  | setfliph b => exact Laws.OpcodeRow.setfliph b
  | setflipv b => exact Laws.OpcodeRow.setflipv b
  | idle => exact Laws.OpcodeRow.idle
  | setind ch v => exact Laws.OpcodeRow.setind ch v
  | exithalt => exact Laws.OpcodeRow.exithalt
  | sendcmd k => exact Laws.OpcodeRow.sendcmd k
  | entercmd => exact Laws.OpcodeRow.entercmd
  | enterdata => exact Laws.OpcodeRow.enterdata

theorem opTable_mnemonic_inj : ∀ r ∈ opTable, ∀ q ∈ opTable, r.mnemonic = q.mnemonic → r = q := by decide

theorem selects_of_decode {w : OpWord} {i : Instr} (h : decode w = .ok i) :
    ∃ r ∈ opTable, r.selects w = true ∧ r.mnemonic = i.mnemonic := by
  obtain ⟨r, hr, hm, hsel⟩ := encode_selects i
  exact ⟨r, hr, decode_eq_ok_iff.mp h ▸ hsel, hm⟩

theorem decode_of_selects {r : OpRow} {w : OpWord} (hr : r ∈ opTable) (h : r.selects w = true) :
    ∃ i, decode w = .ok i ∧ i.mnemonic = r.mnemonic := by
  obtain ⟨i, rfl, hm⟩ := encode_of_selects hr h
  exact ⟨i, decode_encode i, hm⟩

/-- No word selects two rows: both would bear the mnemonic of the one operation it decodes to. -/
theorem selects_unique {r q : OpRow} {w : OpWord} (hr : r ∈ opTable) (hq : q ∈ opTable) (h : r.selects w = true)
    (h' : q.selects w = true) : r = q := by
  obtain ⟨i, hi, him⟩ := decode_of_selects hr h
  obtain ⟨j, hj, hjm⟩ := decode_of_selects hq h'
  obtain rfl : i = j := Decoded.ok.inj (hi.symm.trans hj)
  exact opTable_mnemonic_inj r hr q hq (him.symm.trans hjm)

/-- Settles O3: both sides say that the word is the word of an operation. -/
theorem decoderAgreesWithOpcodeTable : Obligations.DecoderAgreesWithOpcodeTable := by
  unfold Obligations.DecoderAgreesWithOpcodeTable
  refine ⟨fun w => ⟨fun ⟨i, hi⟩ => ?_, fun ⟨r, hr, h⟩ => ?_⟩, fun w i => selects_of_decode,
    fun w r q => selects_unique⟩
  · obtain ⟨r, hr, h, -⟩ := selects_of_decode hi
    exact ⟨r, hr, h⟩
  · obtain ⟨i, hi, -⟩ := decode_of_selects hr h
    exact ⟨i, hi⟩

end Sys2Proof
end

section
/-! SUPPORT. The decoder for a configuration, which also checks the channel of a SETIND (R80). -/

namespace Sys2Proof

theorem decodeFor_encode (c : Cfg) (i : Instr) :
    decodeFor c (encode i) = if i.wf c then .ok i else .reserved .channel := by
  simp [decodeFor, decode_encode]

theorem eq_encode_of_decodeFor {c : Cfg} {w : OpWord} {i : Instr} (h : decodeFor c w = .ok i) :
    w = encode i ∧ i.wf c = true := by
  unfold decodeFor at h
  split at h
  next j hj =>
    split at h <;> cases h
    exact ⟨decode_eq_ok_iff.mp hj, ‹_›⟩
  next => cases h

theorem decodeFor_setind {c : Cfg} {ch : BitVec 4} (v : Byte) (h : ch.toNat < c.nChannels) :
    decodeFor c (encode (.setind ch v)) = .ok (.setind ch v) := by
  simp [decodeFor_encode, Instr.wf, h]

theorem decodeFor_setind_missing {c : Cfg} {ch : BitVec 4} (v : Byte) (h : c.nChannels ≤ ch.toNat) :
    decodeFor c (encode (.setind ch v)) = .reserved .channel := by
  simp [decodeFor_encode, Instr.wf, h]

end Sys2Proof
end

section
/-! PROOF. The words of the test vectors, and the refusal of reserved words (95_test_vectors.md 3.1, R80, R175). -/

namespace Sys2Proof.Machine

/-- Settles O4: the words of E1 to E28 are computed; those of E29 are SETINDs, legal when the channel exists. -/
theorem specWordsDecode : Obligations.SpecWordsDecode := by
  unfold Obligations.SpecWordsDecode
  simp only [List.forall_mem_cons, List.not_mem_nil, false_implies, implies_true, and_true]
  refine ⟨by decide, by decide, by decide, by decide, fun c hc => ⟨?_, ?_, ?_⟩, fun c hc => ⟨?_, ?_⟩⟩
  · exact decodeFor_setind (ch := 2#4) 0xFF#8 (by simp [hc])
  · exact decodeFor_setind_missing (ch := 3#4) 0x00#8 (by simp [hc])
  · exact decodeFor_setind_missing (ch := 15#4) 0xFF#8 (by simp [hc])
  · exact decodeFor_setind (ch := 3#4) 0x00#8 (by simp [hc])
  · exact decodeFor_setind (ch := 15#4) 0xFF#8 (by simp [hc])

/-! ### A presented word -/

theorem step_present {s : State} {w : OpWord} {rest : List Move} (hsched : s.sched = .present w :: rest) :
    step s = presentWord exec w { s with sched := rest } := step_cons hsched

theorem presentWord_reserved {run : Instr → State → Out} {w : OpWord} {s : State} {why : Reserved}
    (h : decodeFor s.cfg w = .reserved why) : presentWord run w s = .refused (.reservedWord why) := by
  simp [presentWord, h]

/-- Settles O5: a word that is not refused is the word of an operation, and no operation's word has a nonzero
must-be-zero field. -/
theorem reservedWordsAreRefused : Obligations.ReservedWordsAreRefused := by
  unfold Obligations.ReservedWordsAreRefused
  intro s w rest hsched hreserved
  rw [step_present hsched]
  cases hd : decodeFor s.cfg w with
  | reserved why => exact ⟨why, presentWord_reserved hd⟩
  | ok i =>
    obtain ⟨rfl, hwf⟩ := eq_encode_of_decodeFor hd
    exfalso
    revert hreserved
    cases i with
    | boot | idle | exithalt | entercmd | enterdata => simp [encode]
    | paint b | setpwr b | setinv b | setallon b | setfliph b | setflipv b =>
      have := boolImm_toNat_lt_two b
      simp [encode, this]
    | setind ch v => simpa [encode, Instr.wf] using hwf
    | sendcmd k => simp [encode]

end Sys2Proof.Machine
end

section
/-! SUPPORT. Assembler text (R87): what a line of a mnemonic and operands is read as. -/

namespace Sys2Proof

/-! ### Numbers, read back -/

theorem hexDigit_hexChar : ∀ n < 16, hexDigit (hexChar n) = some n := by decide

theorem readByte_byteText (v : Byte) : readByte (byteText v) = some v := by
  have hhi := hexDigit_hexChar (v.toNat / 16) (by omega)
  have hlo := hexDigit_hexChar (v.toNat % 16) (by omega)
  have hv : v.toNat / 16 * 16 + v.toNat % 16 = v.toNat := by omega
  simp [readByte, byteText, readDigits, hhi, hlo, hv]

theorem readChannel_channelText : ∀ ch : BitVec 4, readChannel (channelText ch) = some ch := by decide

theorem readBool_boolText (b : Bool) : readBool (boolText b) = some b := by cases b <;> rfl

/-! ### Tokens -/

/-- A character of a mnemonic or an operand: no blank, no comma, no `;`. -/
def isTokenChar (c : Char) : Bool := !isBlank c && c != ';' && c != ','

/-- A mnemonic or an operand as it stands in a line. -/
def isToken (l : List Char) : Bool := !l.isEmpty && l.all isTokenChar

theorem isToken_iff {l : List Char} : isToken l = true ↔ l ≠ [] ∧ ∀ c ∈ l, isTokenChar c = true := by simp [isToken]

theorem notMem_of_isToken {l : List Char} {c : Char} (hc : isTokenChar c = false) (h : isToken l = true) : c ∉ l := by
  obtain ⟨-, hchars⟩ := isToken_iff.mp h
  exact fun hmem => Bool.false_ne_true (hc.symm.trans (hchars c hmem))

theorem isBlank_of_mem_token {l : List Char} {c : Char} (h : isToken l = true) (hc : c ∈ l) : isBlank c = false := by
  obtain ⟨-, hchars⟩ := isToken_iff.mp h
  have hchar := hchars c hc
  simp only [isTokenChar, Bool.and_eq_true, Bool.not_eq_true'] at hchar
  obtain ⟨⟨hblank, -⟩, -⟩ := hchar
  exact hblank

theorem isTokenChar_hexChar : ∀ n < 16, isTokenChar (hexChar n) = true := by decide

theorem isToken_byteText (v : Byte) : isToken (byteText v) = true := by
  have hhi := isTokenChar_hexChar (v.toNat / 16) (by omega)
  have hlo := isTokenChar_hexChar (v.toNat % 16) (by omega)
  simpa [isToken, byteText, hhi, hlo] using (by decide : isTokenChar '0' = true ∧ isTokenChar 'x' = true)

theorem isToken_channelText : ∀ ch : BitVec 4, isToken (channelText ch) = true := by decide

theorem isToken_boolText (b : Bool) : isToken (boolText b) = true := by cases b <;> rfl

/-! ### Blanks -/

@[simp] theorem isBlank_space : isBlank ' ' = true := rfl

/-- A text that neither begins nor ends with a blank. -/
structure Trimmed (l : List Char) : Prop where
  ne_nil : l ≠ []
  front : l.dropWhile isBlank = l
  back : l.reverse.dropWhile isBlank = l.reverse

theorem Trimmed.trimBlanks_eq {l : List Char} (h : Trimmed l) : trimBlanks l = l := by
  rw [trimBlanks, h.front, h.back, List.reverse_reverse]

theorem dropWhile_append_of_eq_self {a l : List Char} (hne : a ≠ []) (h : a.dropWhile isBlank = a) :
    (a ++ l).dropWhile isBlank = a ++ l := by
  simp [List.dropWhile_append, h, hne]

theorem Trimmed.between {a b : List Char} (ha : Trimmed a) (hb : Trimmed b) (l : List Char) :
    Trimmed (a ++ l ++ b) where
  ne_nil := by simp [ha.ne_nil]
  front := by
    rw [List.append_assoc]
    exact dropWhile_append_of_eq_self ha.ne_nil ha.front
  back := by
    rw [List.reverse_append]
    exact dropWhile_append_of_eq_self (by simpa using hb.ne_nil) hb.back

theorem dropWhile_eq_self_of_forall {l : List Char} (h : ∀ c ∈ l, isBlank c = false) : l.dropWhile isBlank = l := by
  cases l with
  | nil => rfl
  | cons c l => exact List.dropWhile_cons_of_neg (by simp [h c List.mem_cons_self])

theorem Trimmed.of_isToken {l : List Char} (h : isToken l = true) : Trimmed l := by
  obtain ⟨hne, -⟩ := isToken_iff.mp h
  exact ⟨hne, dropWhile_eq_self_of_forall fun c => isBlank_of_mem_token h,
    dropWhile_eq_self_of_forall fun c hc => isBlank_of_mem_token h (List.mem_reverse.mp hc)⟩

@[simp] theorem trimBlanks_cons_blank (l : List Char) : trimBlanks (' ' :: l) = trimBlanks l := rfl

theorem trimBlanks_append_blank (l : List Char) : trimBlanks (l ++ [' ']) = trimBlanks l := by
  unfold trimBlanks
  rw [List.dropWhile_append]
  split
  next h =>
    rw [List.isEmpty_iff.mp h]
    rfl
  next => simp [List.dropWhile_cons]

/-! ### A line, written and read -/

/-- The operands of a line, as `Instr.text` lays them out. -/
def operandText : List (List Char) → List Char
  | [] => []
  | [a] => a
  | a :: b :: rest => a ++ [',', ' '] ++ operandText (b :: rest)

/-- A line of a mnemonic and operands, as `Instr.text` lays it out. -/
def lineText (m : List Char) : List (List Char) → List Char
  | [] => m
  | a :: args => m ++ [' '] ++ operandText (a :: args)

theorem operandText_trimmed {a : List Char} {args : List (List Char)} (h : ∀ x ∈ a :: args, isToken x = true) :
    Trimmed (operandText (a :: args)) := by
  induction args generalizing a with
  | nil => exact .of_isToken (h a (by simp))
  | cons b rest ih =>
    exact (Trimmed.of_isToken (h a (by simp))).between (ih fun x hx => h x (List.mem_cons_of_mem _ hx)) _

theorem lineText_trimmed {m : List Char} {args : List (List Char)} (hm : isToken m = true)
    (h : ∀ x ∈ args, isToken x = true) : Trimmed (lineText m args) := by
  cases args with
  | nil => exact .of_isToken hm
  | cons a args => exact (Trimmed.of_isToken hm).between (operandText_trimmed h) _

theorem semicolon_notMem_operandText {args : List (List Char)} (h : ∀ x ∈ args, isToken x = true) :
    ';' ∉ operandText args := by
  induction args using operandText.induct with
  | case1 => simp [operandText]
  | case2 a => exact notMem_of_isToken rfl (h a (by simp))
  | case3 a b rest ih =>
    have ha : ';' ∉ a := notMem_of_isToken rfl (h a (by simp))
    have hrest := ih fun x hx => h x (List.mem_cons_of_mem _ hx)
    simp [operandText, ha, hrest]

theorem semicolon_notMem_lineText {m : List Char} {args : List (List Char)} (hm : isToken m = true)
    (h : ∀ x ∈ args, isToken x = true) : ';' ∉ lineText m args := by
  have hm : ';' ∉ m := notMem_of_isToken rfl hm
  have hargs := semicolon_notMem_operandText h
  cases args <;> simp_all [lineText]

theorem splitOn_of_notMem {sep : Char} {l : List Char} (h : sep ∉ l) : splitOn sep l = [l] := by
  induction l with
  | nil => rfl
  | cons c l ih =>
    obtain ⟨hc, hl⟩ := List.ne_and_not_mem_of_not_mem_cons h
    simp [splitOn, hc.symm, ih hl]

theorem splitOn_append_cons {sep : Char} {a : List Char} (h : sep ∉ a) (l : List Char) :
    splitOn sep (a ++ sep :: l) = a :: splitOn sep l := by
  induction a with
  | nil => simp [splitOn]
  | cons c a ih =>
    obtain ⟨hc, hl⟩ := List.ne_and_not_mem_of_not_mem_cons h
    simp [splitOn, hc.symm, ih hl]

theorem splitOn_ne_nil (sep : Char) (l : List Char) : splitOn sep l ≠ [] := by
  cases l with
  | nil => exact List.cons_ne_nil _ _
  | cons c l =>
    unfold splitOn
    split
    · exact List.cons_ne_nil _ _
    · split <;> exact List.cons_ne_nil _ _

theorem splitOn_cons_blank (l : List Char) :
    (splitOn ',' (' ' :: l)).map trimBlanks = (splitOn ',' l).map trimBlanks := by
  obtain ⟨p, ps, h⟩ := List.exists_cons_of_ne_nil (splitOn_ne_nil ',' l)
  simp [splitOn, h]

/-- The operands are what stands between the commas. -/
theorem splitOn_operandText {a : List Char} {args : List (List Char)} (h : ∀ x ∈ a :: args, isToken x = true) :
    (splitOn ',' (operandText (a :: args))).map trimBlanks = a :: args := by
  have ha := h a (by simp)
  have htrim := (Trimmed.of_isToken ha).trimBlanks_eq
  induction args generalizing a with
  | nil => simp [operandText, splitOn_of_notMem (sep := ',') (notMem_of_isToken rfl ha), htrim]
  | cons b rest ih =>
    have hrest (x) (hx : x ∈ b :: rest) : isToken x = true := h x (List.mem_cons_of_mem _ hx)
    have hb := hrest b (by simp)
    have hsplit := splitOn_append_cons (sep := ',') (notMem_of_isToken rfl ha) (' ' :: operandText (b :: rest))
    simp [operandText, hsplit, splitOn_cons_blank, htrim, ih hrest hb (Trimmed.of_isToken hb).trimBlanks_eq]

theorem takeWhile_eq_self_of_forall {p : Char → Bool} {l : List Char} (h : ∀ c ∈ l, p c = true) :
    l.takeWhile p = l := by
  have happend := List.takeWhile_append_of_pos h (l₂ := [])
  rwa [List.takeWhile_nil, List.append_nil] at happend

theorem dropWhile_eq_nil_of_forall {p : Char → Bool} {l : List Char} (h : ∀ c ∈ l, p c = true) :
    l.dropWhile p = [] := by
  have happend := List.dropWhile_append_of_pos h (l₂ := [])
  rwa [List.append_nil, List.dropWhile_nil] at happend

theorem stripComment_eq_self {l : List Char} (h : ';' ∉ l) : stripComment l = l :=
  takeWhile_eq_self_of_forall fun c hc => by simpa using ne_of_mem_of_not_mem hc h

theorem stripComment_comment {l : List Char} (h : ';' ∉ l) (comment : List Char) :
    stripComment (l ++ [' ', ';'] ++ comment) = l ++ [' '] := by
  have hl : ∀ c ∈ l, (c != ';') = true := fun c hc => by simpa using ne_of_mem_of_not_mem hc h
  simp [stripComment, List.takeWhile_append_of_pos hl]

/-- A comment after a blank does not count (R87). -/
theorem assembleLine_comment {l : List Char} (h : ';' ∉ l) (comment : List Char) :
    assembleLine (l ++ [' ', ';'] ++ comment) = assembleLine l := by
  simp only [assembleLine, stripComment_comment h, stripComment_eq_self h, trimBlanks_append_blank]

/-- The line of a mnemonic and operands is read as that mnemonic with those operands (R87). -/
theorem assembleLine_lineText {m : List Char} {args : List (List Char)} (hm : isToken m = true)
    (h : ∀ x ∈ args, isToken x = true) : assembleLine (lineText m args) = asmOp m args := by
  have hblank : ∀ c ∈ m, (!isBlank c) = true := fun c hc => by simp [isBlank_of_mem_token hm hc]
  simp only [assembleLine, stripComment_eq_self (semicolon_notMem_lineText hm h), (lineText_trimmed hm h).trimBlanks_eq]
  cases args with
  | nil =>
    simp only [lineText, takeWhile_eq_self_of_forall hblank, dropWhile_eq_nil_of_forall hblank]
    rfl
  | cons a args =>
    have htrim := operandText_trimmed h
    have hmn : (lineText m (a :: args)).takeWhile (fun c => !isBlank c) = m := by
      simp [lineText, List.takeWhile_append_of_pos hblank]
    have hrest : (lineText m (a :: args)).dropWhile (fun c => !isBlank c) = ' ' :: operandText (a :: args) := by
      simp [lineText, List.dropWhile_append_of_pos hblank]
    rw [hmn, hrest, trimBlanks_cons_blank, htrim.trimBlanks_eq, if_neg htrim.ne_nil, splitOn_operandText h]

end Sys2Proof
end

section
/-! PROOF. The assembler text of every operation reads back (R87), and so do the other spelling of Booleans and the
pseudo-operations (R88). -/

namespace Sys2Proof

/-! ### The text of an operation -/

/-- The operands in the text of an operation. -/
def Instr.operands : Instr → List (List Char)
  | .boot | .idle | .exithalt | .entercmd | .enterdata => []
  | .paint b | .setpwr b | .setinv b | .setallon b | .setfliph b | .setflipv b => [boolText b]
  | .setind ch v => [channelText ch, byteText v]
  | .sendcmd k => [byteText k]

theorem Instr.text_eq_lineText (i : Instr) : i.text = lineText i.mnemonic.toList i.operands := by
  cases i <;> simp [Instr.text, Instr.mnemonic, Instr.operands, lineText, operandText]

theorem Instr.isToken_mnemonic (i : Instr) : isToken i.mnemonic.toList = true := by
  cases i <;> simp [Instr.mnemonic, isToken, isTokenChar, isBlank]

theorem Instr.isToken_operands (i : Instr) : ∀ x ∈ i.operands, isToken x = true := by
  cases i <;> simp [Instr.operands, isToken_boolText, isToken_byteText, isToken_channelText]

theorem asmOp_operands (i : Instr) : asmOp i.mnemonic.toList i.operands = some i := by
  cases i with
  | boot | idle | exithalt | entercmd | enterdata => rfl
  | paint b | setpwr b | setinv b | setallon b | setfliph b | setflipv b => cases b <;> rfl
  | setind ch v =>
    simp [asmOp, Instr.operands, Instr.mnemonic, readChannel_channelText, readByte_byteText]
  | sendcmd k => simp [asmOp, Instr.operands, Instr.mnemonic, readByte_byteText]

theorem assembleLine_text (i : Instr) : assembleLine i.text = some i := by
  rw [i.text_eq_lineText, assembleLine_lineText i.isToken_mnemonic i.isToken_operands, asmOp_operands]

theorem semicolon_notMem_text (i : Instr) : ';' ∉ i.text := by
  rw [i.text_eq_lineText]
  exact semicolon_notMem_lineText i.isToken_mnemonic i.isToken_operands

/-! ### Lines with one Boolean operand, and with none -/

theorem assembleLine_asmF {m a : List Char} {b : Bool} (hm : isToken m = true) (ha : isToken a = true)
    (hread : readBool a = some b) (hne : m ≠ ['S', 'E', 'N', 'D', 'C', 'M', 'D']) :
    assembleLine (lineText m [a]) = asmF m b := by
  rw [assembleLine_lineText hm (by simpa using ha)]
  simp [asmOp, hread, hne]

theorem assembleLine_asmZ {m : List Char} (hm : isToken m = true) : assembleLine m = asmZ m :=
  assembleLine_lineText (args := []) hm (by simp)

/-- A Boolean operand in letters (R87). -/
def spelledBool (b : Bool) : List Char := if b then ['t', 'r', 'u', 'e'] else ['f', 'a', 'l', 's', 'e']

theorem isToken_spelledBool (b : Bool) : isToken (spelledBool b) = true := by cases b <;> rfl

theorem readBool_spelledBool (b : Bool) : readBool (spelledBool b) = some b := by cases b <;> rfl

theorem assembleLine_spelled {m : List Char} (b : Bool) (hm : isToken m = true)
    (hne : m ≠ ['S', 'E', 'N', 'D', 'C', 'M', 'D']) :
    assembleLine (lineText m [spelledBool b]) = asmF m b :=
  assembleLine_asmF hm (isToken_spelledBool b) (readBool_spelledBool b) hne

/-- Settles O6: every text is a line of a mnemonic and operands, and such a line is read as its parts; a comment and the
blank before it fall away first. -/
theorem assemblerTextReadsBack : Obligations.AssemblerTextReadsBack := by
  unfold Obligations.AssemblerTextReadsBack
  refine ⟨assembleLine_text, fun i comment => ?_, fun b => ⟨?_, ?_, ?_, ?_, ?_, ?_, ?_⟩, ⟨?_, rfl⟩, ⟨?_, rfl⟩,
    ⟨?_, rfl⟩, ⟨?_, rfl⟩, fun b => ⟨?_, rfl⟩⟩
  · rw [assembleLine_comment (semicolon_notMem_text i), assembleLine_text]
  · exact assembleLine_spelled (m := "PAINT".toList) b rfl (by decide)
  · exact assembleLine_spelled (m := "SETPWR".toList) b rfl (by decide)
  · exact assembleLine_spelled (m := "SETINV".toList) b rfl (by decide)
  · exact assembleLine_spelled (m := "SETALLON".toList) b rfl (by decide)
  · exact assembleLine_spelled (m := "SETFLIPH".toList) b rfl (by decide)
  · exact assembleLine_spelled (m := "SETFLIPV".toList) b rfl (by decide)
  · exact assembleLine_spelled (m := "INVERT".toList) b rfl (by decide)
  · exact assembleLine_asmZ (m := "DISPLAYOFF".toList) rfl
  · exact assembleLine_asmZ (m := "DISPLAYON".toList) rfl
  · exact assembleLine_asmZ (m := "CLEAR".toList) rfl
  · exact assembleLine_asmZ (m := "DISPLAY".toList) rfl
  · exact assembleLine_asmF (m := "INVERT".toList) rfl (isToken_boolText b) (readBool_boolText b) (by decide)

end Sys2Proof
end

section
/-! PROOF. The batches on BATCHED (R84, R103): only BatchDone delivers one, and the invariant gives its shape. -/

namespace Sys2Proof.Machine

/-! ### The batch on its way -/

theorem mayCarryCommand_batch {s : State} {b : Option Byte} (h : mayCarryCommand s b = true) (hbusy : s.txBusy = true) :
    ∃ c, s.txBuf = cmdBatch c := by
  unfold mayCarryCommand at h
  split at h
  · simp [hbusy] at h
  · cases b with
    | none => simp [hbusy] at h
    | some c =>
      simp only [hbusy, if_true, Bool.and_eq_true, decide_eq_true_eq, Option.map_some, Option.some.injEq] at h
      obtain ⟨-, hbuf⟩ := h
      exact ⟨c, hbuf⟩

theorem frameBytes_length (clr : Bool) (fb : Memory) (lo n : Nat) : (frameBytes clr fb lo n).length = n := by
  simp [frameBytes]

/-- What is on its way on BATCHED under the invariant: a command byte of BOOT or of C_*, or the chunk that Q_CLOSE waits
for. -/
theorem busOk_batch {s : State} (h : busOk s = true) (hbusy : s.txBusy = true) :
    (∃ c, s.txBuf = cmdBatch c) ∨ ∃ chunk, s.txBuf = dataBatch chunk ∧ chunk.length = s.cfg.chunkSize := by
  cases hq : s.seq with
  | b5Prog | cRestore =>
    simp only [busOk, hq, Bool.and_eq_true] at h
    obtain ⟨-, hcarry⟩ := h
    exact .inl (mayCarryCommand_batch hcarry hbusy)
  | cSend =>
    simp only [busOk, hq, Bool.and_eq_true] at h
    obtain ⟨-, h⟩ := h
    split at h <;> simp [busQuiet, hbusy] at h
  | qClose =>
    simp only [busOk, hq, hbusy, Bool.or_true, if_true, Bool.and_eq_true, decide_eq_true_eq] at h
    obtain ⟨⟨⟨⟨⟨⟨⟨-, hck⟩, -⟩, -⟩, -⟩, -⟩, -⟩, hbuf⟩ := h
    exact .inr ⟨_, hbuf, (frameBytes_length ..).trans hck⟩
  | pFetch | pSend | pDrain => simp [busOk, hq, mayCarryPixel, hbusy] at h
  | wBoot | b1Pins | b1Safe | b2Bus | b3RstLo | b3Hold | b3RstHi | b3Settle | b4Cs | b5Cmd | b6Data | b7Pwr | ready
  | cEnter | qOpen | qFill | iSleep | xIrq | xLink | xHandoff | hSafe | hLoader =>
    simp [busOk, busQuiet, hq, hbusy] at h

/-! ### The step that delivers it -/

/-- Accepting an operation delivers no batch. -/
theorem acceptState_trace_ne_batch (i : Instr) (s : State) (a : Nat) (bs : List Byte) :
    (acceptState i s).trace ≠ s.trace ++ [.batch a bs] := by
  cases i with
  | entercmd | enterdata => cases h : s.cfg.transport <;> simp [acceptState, State.enterMode, h]
  | boot | paint | setpwr | setinv | setallon | setfliph | setflipv | exithalt | sendcmd =>
    simp [acceptState, startCommand]
  | idle | setind => simp [acceptState, enterSleep, setIndicator]

/-- Only BatchDone delivers a batch: the one on its way, to the one address (R103). -/
theorem takeMove_batch {m : Move} {s t : State} {a : Nat} {bs : List Byte} (h : takeMove exec m s = .next t)
    (htr : t.trace = s.trace ++ [.batch a bs]) :
    m = .batchDone ∧ s.txBusy = true ∧ a = s.cfg.periphAddr ∧ bs = s.txBuf := by
  cases m with
  | batchDone =>
    cases h
    obtain ⟨hbusy, hd⟩ | ⟨-, hd⟩ := batchDone_cases s
    · simp only [hd, List.append_cancel_left_eq, List.cons.injEq, Event.batch.injEq, and_true] at htr
      obtain ⟨rfl, rfl⟩ := htr
      exact ⟨rfl, hbusy, rfl, rfl⟩
    · simp [hd] at htr
  | block => exact ((microStep_blockStep h).mayEmit htr).elim
  | present w =>
    obtain ⟨i, -, hi⟩ := presentWord_eq_next.mp h
    exact absurd (exec_next hi ▸ htr) (acceptState_trace_ne_batch i s a bs)
  | fbWrite i v =>
    obtain ⟨-, -, rfl⟩ := hostFbWrite_eq_next.mp h
    simp at htr
  | fbSupply bs =>
    obtain ⟨-, rfl⟩ := hostFbSupply_eq_next.mp h
    simp at htr
  | platform i l =>
    obtain ⟨-, rfl⟩ := platformSet_eq_next.mp h
    simp at htr
  | serialDone =>
    cases h
    obtain ⟨-, hd⟩ | ⟨-, hd⟩ := serialDone_cases s <;> simp [hd] at htr
  | irq =>
    cases h
    obtain ⟨-, -, hw⟩ | ⟨-, hw⟩ := wake_cases s <;> simp [hw] at htr
  | button held => cases h; simp at htr
  | foreignDrive => cases h
  | reset p => cases h; simp [resetMove, State.resetWith] at htr

theorem step_batch {s t : State} {a : Nat} {bs : List Byte} (h : step s = .next t)
    (htr : t.trace = s.trace ++ [.batch a bs]) :
    (∃ rest, s.sched = .batchDone :: rest) ∧ s.txBusy = true ∧ a = s.cfg.periphAddr ∧ bs = s.txBuf := by
  obtain ⟨-, hblock⟩ | ⟨m, rest, hsched, hmove⟩ := step_cases h
  · exact ((microStep_blockStep hblock).mayEmit htr).elim
  · obtain ⟨rfl, hbatch⟩ := takeMove_batch (s := { s with sched := rest }) hmove htr
    exact ⟨⟨rest, hsched⟩, hbatch⟩

/-- Settles O46: the batch delivered is the one in the buffer, whose shape the invariant fixes. -/
theorem twoBatchShapes : Obligations.TwoBatchShapes := by
  unfold Obligations.TwoBatchShapes
  intro s t a bs hinv hstep htr
  obtain ⟨-, hbusy, ha, rfl⟩ := step_batch hstep htr
  obtain ⟨-, -, -, hbus, -⟩ := State.inv_iff.mp hinv
  exact ⟨ha, busOk_batch hbus hbusy⟩

end Sys2Proof.Machine
end

section
/-! PROOF. The bus driver (40_bus_driver.md): its primitives where they go on, wait or are refused, and the two steps of
the environment that alone end what is in flight and report it (R98, R103). -/

namespace Sys2Proof.Machine

/-! ### The primitives where they do not go on (R96, R100 to R102) -/

theorem xferStart_busNotReady {s : State} (b : Byte) (h : s.busReady = false) :
    xferStart b s = .refuse .busNotReady := by
  simp [xferStart, h]

theorem txBegin_busNotReady {s : State} (h : s.busReady = false) : txBegin s = .refuse .busNotReady := by
  simp [txBegin, h]

theorem txBegin_open {s : State} (hready : s.busReady = true) (hopen : s.txOpen = true) :
    txBegin s = .refuse .batchProtocol := by
  simp [txBegin, hready, hopen]

theorem txBegin_flushing {s : State} (hready : s.busReady = true) (hopen : s.txOpen = false) (hbusy : s.txBusy = true) :
    txBegin s = .wait := by
  simp [txBegin, hready, hopen, hbusy]

theorem txWrite_full {s : State} (b : Byte) (hopen : s.txOpen = true) (hfull : s.cfg.txbufCap ≤ s.txBuf.length) :
    txWrite b s = .refuse .batchOverflow := by
  simp [txWrite, hopen, hfull]

theorem txWrite_closed {s : State} (b : Byte) (h : s.txOpen = false) : txWrite b s = .refuse .batchProtocol := by
  simp [txWrite, h]

theorem txEndStart_closed {s : State} (h : s.txOpen = false) : txEndStart s = .refuse .batchProtocol := by
  simp [txEndStart, h]

/-- Settles O42: one equation for each case of each primitive. -/
theorem busPrimitivesAsWritten : Obligations.BusPrimitivesAsWritten := by
  unfold Obligations.BusPrimitivesAsWritten
  refine ⟨?xferGo, ?xferWait, ?xferRefused, ?beginGo, ?beginWait, ?beginOpen, ?beginRefused, ?writeGo, ?writeFull,
    ?writeClosed, ?endGo, ?endClosed⟩
  case xferGo => exact fun s b hready hidle => xferStart_eq_go.mpr ⟨hready, hidle, rfl⟩
  case xferWait => exact fun s b => xferStart_busy b
  case xferRefused => exact fun s b => xferStart_busNotReady b
  case beginGo => exact fun s hready hopen hbusy => txBegin_eq_go.mpr ⟨hready, hopen, hbusy, rfl⟩
  case beginWait => exact fun s => txBegin_flushing
  case beginOpen => exact fun s => txBegin_open
  case beginRefused => exact fun s => txBegin_busNotReady
  case writeGo => exact fun s b hopen hroom => txWrite_eq_go.mpr ⟨hopen, hroom, rfl⟩
  case writeFull => exact fun s b => txWrite_full b
  case writeClosed => exact fun s b => txWrite_closed b
  case endGo => exact fun s hopen => txEndStart_eq_go.mpr ⟨hopen, rfl⟩
  case endClosed => exact fun s => txEndStart_closed

/-! ### What is in flight stays in flight -/

/-- Neither a byte nor a batch in flight in `s` has ended in `t`. -/
def State.KeepsInFlight (s t : State) : Prop :=
  (s.spiBusy = true → t.spiBusy = true) ∧ (s.txBusy = true → t.txBusy = true)

theorem State.KeepsInFlight.of_eq {s t : State} (hspi : t.spiBusy = s.spiBusy) (htx : t.txBusy = s.txBusy) :
    s.KeepsInFlight t :=
  ⟨hspi.trans, htx.trans⟩

theorem microB1Safe_keepsInFlight (s : State) : (microB1Safe s).Ensures s.KeepsInFlight := by
  unfold microB1Safe
  split <;> exact Micro.ensures_go.mpr (.of_eq rfl rfl)

/-- INITBUS clears both flags (R95, R99), and nothing is in flight where it is taken. -/
theorem microB2Bus_keepsInFlight {s : State} (h : busQuiet s = true) : (microB2Bus s).Ensures s.KeepsInFlight := by
  simp only [busQuiet, Bool.and_eq_true, Bool.not_eq_true', and_assoc] at h
  obtain ⟨hspi, -, htx, -⟩ := h
  simp [microB2Bus, State.KeepsInFlight, hspi, htx]

theorem startBootByte_keepsInFlight (b : Byte) (s : State) : (startBootByte b s).Ensures s.KeepsInFlight := by
  unfold startBootByte
  split <;> simp [State.KeepsInFlight]

theorem microB5Prog_keepsInFlight (s : State) : (microB5Prog s).Ensures s.KeepsInFlight := by
  unfold microB5Prog
  refine ensures_await.mpr fun _ => ?_
  split
  · exact startBootByte_keepsInFlight _ s
  · exact Micro.ensures_go.mpr (.of_eq rfl rfl)

theorem microCEnter_keepsInFlight (s : State) : (microCEnter s).Ensures s.KeepsInFlight := by
  unfold microCEnter
  split <;> simp [State.KeepsInFlight]

theorem microCSend_keepsInFlight (s : State) : (microCSend s).Ensures s.KeepsInFlight := by
  unfold microCSend
  split <;> simp [State.KeepsInFlight]

theorem microCRestore_keepsInFlight (s : State) : (microCRestore s).Ensures s.KeepsInFlight := by
  unfold microCRestore
  split <;> simp [State.KeepsInFlight, finishCommand]

theorem microQFill_keepsInFlight (s : State) : (microQFill s).Ensures s.KeepsInFlight := by
  unfold microQFill
  split <;> simp [State.KeepsInFlight]

theorem microQClose_keepsInFlight (s : State) : (microQClose s).Ensures s.KeepsInFlight := by
  unfold microQClose
  split
  · simp [State.KeepsInFlight]
  · refine ensures_await.mpr fun _ => ?_
    split <;> exact Micro.ensures_go.mpr (.of_eq rfl rfl)

/-- One case for each micro-state of R31: only INITBUS clears a flag. -/
theorem micro_keepsInFlight {s : State} (h : busOk s = true) : (micro s).Ensures s.KeepsInFlight := by
  unfold micro
  cases hq : s.seq with
  | wBoot | ready | iSleep | hSafe | hLoader => exact Micro.ensures_wait
  | b1Safe => exact microB1Safe_keepsInFlight s
  | b2Bus =>
    simp only [busOk, hq, Bool.and_eq_true] at h
    obtain ⟨-, hquiet⟩ := h
    exact microB2Bus_keepsInFlight hquiet
  | b1Pins | b3RstLo | b3Hold | b3RstHi | b3Settle | b4Cs | b7Pwr | xIrq | xLink | xHandoff =>
    exact Micro.ensures_go.mpr (.of_eq rfl rfl)
  | b5Cmd | b6Data => exact Micro.ensures_go.mpr (.of_eq (s.enterMode_spiBusy _) (s.enterMode_txBusy _))
  | b5Prog => exact microB5Prog_keepsInFlight s
  | cEnter => exact microCEnter_keepsInFlight s
  | cSend => exact microCSend_keepsInFlight s
  | cRestore => exact microCRestore_keepsInFlight s
  | pFetch => simp [microPFetch, State.KeepsInFlight]
  | pSend => simp [microPSend, State.KeepsInFlight]
  | pDrain => simp [microPDrain, finishPaint, State.KeepsInFlight]
  | qOpen => simp [microQOpen, State.KeepsInFlight]
  | qFill => exact microQFill_keepsInFlight s
  | qClose => exact microQClose_keepsInFlight s

/-- What every step but a completion and a reset does to the bus: nothing in flight ends, and no byte and no batch is
reported. -/
def State.NoCompletion (s t : State) : Prop := s.KeepsInFlight t ∧ s.BlockStep t

theorem State.noCompletion_silent {s t : State} (hspi : t.spiBusy = s.spiBusy) (htx : t.txBusy = s.txBusy)
    (hdr : t.spiDr = s.spiDr) (htr : t.trace = s.trace) : s.NoCompletion t :=
  ⟨.of_eq hspi htx, State.blockStep_silent (fun _ => hdr) htr⟩

theorem State.NoCompletion.trace_ne_serial {s t : State} (h : s.NoCompletion t) (b : Byte) :
    t.trace ≠ s.trace ++ [.serial b] := by
  obtain ⟨-, hblock⟩ := h
  exact fun htr => hblock.mayEmit htr

theorem microStep_noCompletion {s t : State} (hbus : busOk s = true) (h : microStep s = .next t) :
    s.NoCompletion t := by
  refine ⟨?_, microStep_blockStep h⟩
  obtain hgo | ⟨-, rfl⟩ := Micro.turn_eq_next.mp h
  · exact micro_keepsInFlight hbus t hgo
  · exact .of_eq rfl rfl

theorem acceptState_noCompletion (i : Instr) (s : State) : s.NoCompletion (acceptState i s) := by
  cases i with
  | entercmd | enterdata =>
    exact ⟨.of_eq (s.enterMode_spiBusy _) (s.enterMode_txBusy _), enterMode_blockStep _ (s.enterMode_spiDr _) rfl⟩
  | idle => exact ⟨.of_eq rfl rfl, State.blockStep_emit (e := .sleep) trivial (fun _ => rfl) rfl⟩
  | setind ch v =>
    exact ⟨.of_eq rfl rfl, State.blockStep_emit (e := .ind ch.toNat (indValue s.cfg v)) trivial (fun _ => rfl) rfl⟩
  | boot | paint | setpwr | setinv | setallon | setfliph | setflipv | exithalt | sendcmd =>
    exact State.noCompletion_silent rfl rfl rfl rfl

theorem wake_noCompletion (s : State) : s.NoCompletion (wake s) := by
  obtain ⟨-, -, hw⟩ | ⟨-, hw⟩ := wake_cases s <;> rw [hw]
  · exact ⟨.of_eq rfl rfl, fun _ => rfl, .inr (.inr ⟨.irq, .wake, trivial, trivial, rfl⟩)⟩
  · exact State.noCompletion_silent rfl rfl rfl rfl

/-- Every move completes nothing, or is one of the two completions of the bus environment, or a reset. -/
theorem takeMove_completion_cases {m : Move} {s t : State} (hbus : busOk s = true) (h : takeMove exec m s = .next t) :
    s.NoCompletion t ∨ (m = .serialDone ∧ t = serialDone s) ∨ (m = .batchDone ∧ t = batchDone s) ∨
      ∃ p, m = .reset p ∧ t = resetMove p s := by
  cases m with
  | serialDone => cases h; exact .inr (.inl ⟨rfl, rfl⟩)
  | batchDone => cases h; exact .inr (.inr (.inl ⟨rfl, rfl⟩))
  | reset p => cases h; exact .inr (.inr (.inr ⟨p, rfl, rfl⟩))
  | block => exact .inl (microStep_noCompletion hbus h)
  | present w =>
    obtain ⟨i, -, hi⟩ := presentWord_eq_next.mp h
    exact .inl (exec_next hi ▸ acceptState_noCompletion i s)
  | fbWrite i v =>
    obtain ⟨-, -, rfl⟩ := hostFbWrite_eq_next.mp h
    exact .inl (State.noCompletion_silent rfl rfl rfl rfl)
  | fbSupply bs =>
    obtain ⟨-, rfl⟩ := hostFbSupply_eq_next.mp h
    exact .inl (State.noCompletion_silent rfl rfl rfl rfl)
  | platform i l =>
    obtain ⟨-, rfl⟩ := platformSet_eq_next.mp h
    exact .inl (State.noCompletion_silent rfl rfl rfl rfl)
  | irq => cases h; exact .inl (wake_noCompletion s)
  | button held => cases h; exact .inl (State.noCompletion_silent rfl rfl rfl rfl)
  | foreignDrive => cases h

theorem step_completion_cases {s t : State} (hbus : busOk s = true) (h : step s = .next t) :
    s.NoCompletion t ∨
      (∃ rest, s.sched = .serialDone :: rest ∧ t = serialDone { s with sched := rest }) ∨
      (∃ rest, s.sched = .batchDone :: rest ∧ t = batchDone { s with sched := rest }) ∨
      ∃ p rest, s.sched = .reset p :: rest ∧ t = resetMove p { s with sched := rest } := by
  obtain ⟨-, hblock⟩ | ⟨m, rest, hsched, hmove⟩ := step_cases h
  · exact .inl (microStep_noCompletion hbus hblock)
  · obtain hnone | ⟨rfl, ht⟩ | ⟨rfl, ht⟩ | ⟨p, rfl, ht⟩ :=
      takeMove_completion_cases (s := { s with sched := rest }) hbus hmove
    · exact .inl hnone
    · exact .inr (.inl ⟨rest, hsched, ht⟩)
    · exact .inr (.inr (.inl ⟨rest, hsched, ht⟩))
    · exact .inr (.inr (.inr ⟨p, rest, hsched, ht⟩))

/-! ### The two completions -/

theorem serialDone_txBusy (s : State) : (serialDone s).txBusy = s.txBusy := by
  obtain ⟨-, hd⟩ | ⟨-, hd⟩ := serialDone_cases s <;> rw [hd]

theorem batchDone_spiBusy (s : State) : (batchDone s).spiBusy = s.spiBusy := by
  obtain ⟨-, hd⟩ | ⟨-, hd⟩ := batchDone_cases s <;> rw [hd]

/-- The byte SerialDone reports is the one in the data register (R98). -/
theorem serialDone_trace_serial {s : State} {b : Byte} (h : (serialDone s).trace = s.trace ++ [.serial b]) :
    s.spiBusy = true ∧ b = s.spiDr := by
  obtain ⟨hbusy, hd⟩ | ⟨-, hd⟩ := serialDone_cases s
  · simp only [hd, List.append_cancel_left_eq, List.cons.injEq, Event.serial.injEq, and_true] at h
    exact ⟨hbusy, h.symm⟩
  · simp [hd] at h

theorem batchDone_trace_ne_serial (s : State) (b : Byte) : (batchDone s).trace ≠ s.trace ++ [.serial b] := by
  obtain ⟨-, hd⟩ | ⟨-, hd⟩ := batchDone_cases s <;> simp [hd]

theorem step_spiBusy_ends {s t : State} (hbus : busOk s = true) (h : step s = .next t) (hs : s.spiBusy = true)
    (ht : t.spiBusy = false) :
    (∃ rest, s.sched = .serialDone :: rest) ∨ ∃ p rest, s.sched = .reset p :: rest := by
  obtain ⟨⟨hspi, -⟩, -⟩ | ⟨rest, hsched, -⟩ | ⟨rest, -, rfl⟩ | ⟨p, rest, hsched, -⟩ :=
    step_completion_cases hbus h
  · simp [hspi hs] at ht
  · exact .inl ⟨rest, hsched⟩
  · simp [batchDone_spiBusy, hs] at ht
  · exact .inr ⟨p, rest, hsched⟩

theorem step_txBusy_ends {s t : State} (hbus : busOk s = true) (h : step s = .next t) (hs : s.txBusy = true)
    (ht : t.txBusy = false) :
    (∃ rest, s.sched = .batchDone :: rest) ∨ ∃ p rest, s.sched = .reset p :: rest := by
  obtain ⟨⟨-, htx⟩, -⟩ | ⟨rest, -, rfl⟩ | ⟨rest, hsched, -⟩ | ⟨p, rest, hsched, -⟩ :=
    step_completion_cases hbus h
  · simp [htx hs] at ht
  · simp [serialDone_txBusy, hs] at ht
  · exact .inl ⟨rest, hsched⟩
  · exact .inr ⟨p, rest, hsched⟩

/-- Only SerialDone reports a byte: the one in the data register (R98). -/
theorem step_serial {s t : State} {b : Byte} (hbus : busOk s = true) (h : step s = .next t)
    (htr : t.trace = s.trace ++ [.serial b]) :
    (∃ rest, s.sched = .serialDone :: rest) ∧ s.spiBusy = true ∧ b = s.spiDr := by
  obtain hnone | ⟨rest, hsched, rfl⟩ | ⟨rest, -, rfl⟩ | ⟨p, rest, -, rfl⟩ := step_completion_cases hbus h
  · exact absurd htr (hnone.trace_ne_serial b)
  · exact ⟨⟨rest, hsched⟩, serialDone_trace_serial (s := { s with sched := rest }) htr⟩
  · exact absurd htr (batchDone_trace_ne_serial _ b)
  · simp [resetMove, State.resetWith] at htr

/-- Settles O44: a micro-step of the block that clears `spi_busy` would be INITBUS, which finds nothing in flight. -/
theorem onlySerialDoneCompletesAByte : Obligations.OnlySerialDoneCompletesAByte := by
  unfold Obligations.OnlySerialDoneCompletesAByte
  intro s t hinv hstep
  obtain ⟨-, -, -, hbus, -⟩ := State.inv_iff.mp hinv
  exact ⟨step_spiBusy_ends hbus hstep, fun b => step_serial hbus hstep⟩

/-- Settles O45: as for a byte; the batch reported is `step_batch`'s. -/
theorem onlyBatchDoneDeliversABatch : Obligations.OnlyBatchDoneDeliversABatch := by
  unfold Obligations.OnlyBatchDoneDeliversABatch
  intro s t hinv hstep
  obtain ⟨-, -, -, hbus, -⟩ := State.inv_iff.mp hinv
  exact ⟨step_txBusy_ends hbus hstep, fun a bs => step_batch hstep⟩

end Sys2Proof.Machine
end

section
/-! PROOF. ENTERCMD, ENTERDATA, and the acceptance of the six command operations (R106 to R115). -/

namespace Sys2Proof.Machine

theorem State.goto_seq_self (s : State) : s.goto s.seq = s := rfl

/-- ENTERCMD and ENTERDATA leave `seq` in READY, where it is. -/
theorem State.enterMode_goto_ready {s : State} (m : LinkMode) (hq : s.seq = .ready) :
    (s.enterMode m).goto .ready = s.enterMode m := by
  rw [← hq, ← s.enterMode_seq m, State.goto_seq_self]

theorem exec_entercmd {s : State} (hq : s.seq = .ready) : exec .entercmd s = .next (s.enterMode .command) := by
  rw [exec, execEntercmd, acceptReady_ready hq, State.enterMode_goto_ready _ hq]

theorem exec_enterdata {s : State} (hq : s.seq = .ready) : exec .enterdata s = .next (s.enterMode .data) := by
  rw [exec, execEnterdata, acceptReady_ready hq, State.enterMode_goto_ready _ hq]

/-- Settles O18: ENTERCMD is `enterMode`, which drives the line on SERIAL only. -/
theorem entercmdResult : Obligations.EntercmdResult := by
  unfold Obligations.EntercmdResult
  refine ⟨rfl, fun s hq ht => ?_, fun s hq ht => ?_⟩
  · rw [exec_entercmd hq, State.enterMode_serial _ _ ht]
  · rw [exec_entercmd hq, State.enterMode_batched _ _ ht]

/-- Settles O19: as ENTERCMD, with data mode. -/
theorem enterdataResult : Obligations.EnterdataResult := by
  unfold Obligations.EnterdataResult
  refine ⟨rfl, fun s hq ht => ?_, fun s hq ht => ?_⟩
  · rw [exec_enterdata hq, State.enterMode_serial _ _ ht]
  · rw [exec_enterdata hq, State.enterMode_batched _ _ ht]

/-! ### SENDCMD and the mode operations -/

/-- The mode operation of a flag (R110). -/
def modeOp (f : DispFlag) (b : Bool) : Instr :=
  match f with
  | .pwr => .setpwr b
  | .inv => .setinv b
  | .allon => .setallon b
  | .fliph => .setfliph b
  | .flipv => .setflipv b

theorem exists_eq_modeOp {i : Instr}
    (h : ∃ b, i = .setpwr b ∨ i = .setinv b ∨ i = .setallon b ∨ i = .setfliph b ∨ i = .setflipv b) :
    ∃ f b, i = modeOp f b := by
  obtain ⟨b, rfl | rfl | rfl | rfl | rfl⟩ := h
  · exact ⟨.pwr, b, rfl⟩
  · exact ⟨.inv, b, rfl⟩
  · exact ⟨.allon, b, rfl⟩
  · exact ⟨.fliph, b, rfl⟩
  · exact ⟨.flipv, b, rfl⟩

theorem exec_sendcmd {s : State} (k : Byte) (hq : s.seq = .ready) :
    exec (.sendcmd k) s = .next (startCommand s k .raw) := acceptReady_ready hq

/-- A mode operation is accepted as a command of its byte in the table (R110). -/
theorem exec_modeOp {s : State} (f : DispFlag) (b : Bool) (hq : s.seq = .ready) :
    exec (modeOp f b) s = .next (startCommand s (cmdRom s.cfg f b) (.flag f b)) := by
  cases f <;> exact acceptReady_ready hq

/-- The value of a word, from its fields (R76). -/
theorem toNat_packWord (op sel : BitVec 4) (imm : Byte) :
    (packWord op sel imm).toNat = (op ++ sel).toNat * 256 + imm.toNat :=
  calc (packWord op sel imm).toNat
    _ = (op ++ sel).toNat <<< 8 ||| imm.toNat := BitVec.toNat_append (op ++ sel) imm
    _ = (op ++ sel).toNat <<< 8 + imm.toNat := (Nat.shiftLeft_add_eq_or_of_lt imm.isLt _).symm
    _ = (op ++ sel).toNat * 256 + imm.toNat := by rw [Nat.shiftLeft_eq]

/-- The byte of a word is added to the word without it (R76). -/
theorem packWord_eq_add (op sel : BitVec 4) (imm : Byte) :
    packWord op sel imm = packWord op sel 0#8 + imm.zeroExtend 16 := by
  apply BitVec.eq_of_toNat_eq
  simp [BitVec.toNat_add, toNat_packWord]
  omega

/-- Settles O20: every command operation is accepted by `startCommand`, with its operand or its byte in the table. -/
theorem commandOperationsStart : Obligations.CommandOperationsStart := by
  unfold Obligations.CommandOperationsStart
  intro s hq
  refine ⟨fun k => ⟨packWord_eq_add 0xB#4 0#4 k, exec_sendcmd k hq⟩, fun b => ⟨?_, exec_modeOp .pwr b hq⟩,
    fun b => ⟨?_, exec_modeOp .inv b hq⟩, fun b => ⟨?_, exec_modeOp .allon b hq⟩,
    fun b => ⟨?_, exec_modeOp .fliph b hq⟩, fun b => ⟨?_, exec_modeOp .flipv b hq⟩⟩ <;> cases b <;> rfl

end Sys2Proof.Machine
end

section
/-! PROOF. The micro-steps of a command, on each transport (R109). -/

namespace Sys2Proof.Machine

/-! ### SERIAL -/

theorem microStep_cEnter_serial {s : State} (hq : s.seq = .cEnter) (ht : s.cfg.transport = .serial) :
    microStep s = .next { s with
      dc := .driven .command, mode := .holds .command, trace := s.trace ++ [.pin (.dc .command)], seq := .cSend } := by
  simp [microStep, micro, hq, microCEnter, ht, State.enterMode_serial, State.goto]

theorem microStep_cSend_serial {s : State} (hq : s.seq = .cSend) (ht : s.cfg.transport = .serial)
    (hready : s.busReady = true) (hidle : s.spiBusy = false) :
    microStep s = .next { s with spiDr := s.lat, spiBusy := true, seq := .cRestore } := by
  simp [microStep, micro, hq, microCSend, ht, xferStart, hready, hidle, State.goto]

theorem microStep_cRestore_serial_busy {s : State} (hq : s.seq = .cRestore) (ht : s.cfg.transport = .serial)
    (hbusy : s.spiBusy = true) : microStep s = .next s := by
  simp [microStep, micro, hq, microCRestore, ht, hbusy]

theorem microStep_cRestore_serial {s : State} (hq : s.seq = .cRestore) (ht : s.cfg.transport = .serial)
    (hidle : s.spiBusy = false) :
    microStep s = .next { s with
      dc := .driven .data, mode := .holds .data, trace := s.trace ++ [.pin (.dc .data)], seq := .ready
      disp := s.disp.afterCommand s.cmdSrc } := by
  simp [microStep, micro, hq, microCRestore, ht, hidle, finishCommand, State.enterMode_serial]

/-! ### BATCHED -/

theorem microStep_cEnter_batched {s : State} (hq : s.seq = .cEnter) (ht : s.cfg.transport = .batched)
    (hready : s.busReady = true) (hopen : s.txOpen = false) (hbusy : s.txBusy = false) (hcap : 2 ≤ s.cfg.txbufCap) :
    microStep s = .next { s with
      mode := .holds .command, txOpen := true, txBuf := cmdBatch s.lat, seq := .cSend } := by
  have hcap0 : 0 < s.cfg.txbufCap := by omega
  have hcap1 : 1 < s.cfg.txbufCap := hcap
  simp [microStep, micro, hq, microCEnter, ht, State.enterMode_batched, txBegin, txWrite, hready, hopen, hbusy, hcap0,
    hcap1, cmdBatch, State.goto]

theorem microStep_cSend_batched {s : State} (hq : s.seq = .cSend) (ht : s.cfg.transport = .batched)
    (hopen : s.txOpen = true) :
    microStep s = .next { s with txOpen := false, txBusy := true, seq := .cRestore } := by
  simp [microStep, micro, hq, microCSend, ht, txEndStart, hopen, State.goto]

theorem microStep_cRestore_batched_busy {s : State} (hq : s.seq = .cRestore) (ht : s.cfg.transport = .batched)
    (hbusy : s.txBusy = true) : microStep s = .next s := by
  simp [microStep, micro, hq, microCRestore, ht, hbusy]

theorem microStep_cRestore_batched {s : State} (hq : s.seq = .cRestore) (ht : s.cfg.transport = .batched)
    (hidle : s.txBusy = false) :
    microStep s = .next { s with
      mode := .holds .data, seq := .ready, disp := s.disp.afterCommand s.cmdSrc } := by
  simp [microStep, micro, hq, microCRestore, ht, hidle, finishCommand, State.enterMode_batched]

/-- Settles O21: one equation for each micro-step and each wait, on each transport. -/
theorem commandMicroStepsAsWritten : Obligations.CommandMicroStepsAsWritten := by
  unfold Obligations.CommandMicroStepsAsWritten
  exact ⟨fun _ => microStep_cEnter_serial, fun _ => microStep_cSend_serial, fun _ => microStep_cRestore_serial_busy,
    fun _ => microStep_cRestore_serial, fun _ => microStep_cEnter_batched, fun _ => microStep_cSend_batched,
    fun _ => microStep_cRestore_batched_busy, fun _ => microStep_cRestore_batched⟩

end Sys2Proof.Machine
end

section
/-! PROOF. The life of a command from its acceptance to READY under every quiet schedule (R109, R110): the block and the
bus environment move it through five stages, and no quiet move does anything else. -/

namespace Sys2Proof.Machine

/-! ### Runs -/

/-- What every step keeps holds at the end of a run. -/
theorem run_keeps {P : State → Prop} (hstep : ∀ {s t}, P s → step s = .next t → P t) {k : Nat} {s t : State} (hs : P s)
    (h : run k s = .next t) : P t := by
  induction k generalizing s with
  | zero =>
    cases h
    exact hs
  | succ k ih =>
    cases hu : step s with
    | next u => exact ih (hstep hs hu) (run_succ hu ▸ h)
    | fault r => simp [run, hu] at h
    | refused r => simp [run, hu] at h

/-! ### The state in which a command is accepted -/

/-- READY with the bus ready and idle, and room for a command batch (R12, R34, R35). -/
structure State.CommandReady (s : State) : Prop where
  seq : s.seq = .ready
  busReady : s.busReady = true
  spiBusy : s.spiBusy = false
  txOpen : s.txOpen = false
  txBusy : s.txBusy = false
  txBuf : s.txBuf = []
  cap : s.cfg.transport = .batched → 2 ≤ s.cfg.txbufCap

theorem cfg_txbufCap {c : Cfg} (h : c.wf = true) (ht : c.transport = .batched) : 2 ≤ c.txbufCap := by
  simp only [Cfg.wf, Bool.and_eq_true, and_assoc] at h
  obtain ⟨-, -, -, -, -, hbatch, -⟩ := h
  simp only [Cfg.batchOk, ht, bne_self_eq_false, Bool.false_or, Bool.and_eq_true, decide_eq_true_eq] at hbatch
  obtain ⟨-, hcap⟩ := hbatch
  exact hcap

theorem State.commandReady_of_inv {s : State} (hinv : s.inv = true) (hq : s.seq = .ready) : s.CommandReady := by
  obtain ⟨hwf, -⟩ := State.inv_iff.mp hinv
  obtain ⟨hready, hspi, hopen, htx, hbuf⟩ := State.inv_bus_of_ready hinv hq
  exact ⟨hq, hready, hspi, hopen, htx, hbuf, cfg_txbufCap hwf⟩

theorem State.CommandReady.withSched {s : State} (h : s.CommandReady) (r : List Move) :
    { s with sched := r }.CommandReady :=
  ⟨h.seq, h.busReady, h.spiBusy, h.txOpen, h.txBusy, h.txBuf, h.cap⟩

theorem State.CommandReady.commandDone {s : State} (h : s.CommandReady) (c : Byte) (src : CmdSource) (r : List Move) :
    (commandDone s c src r).CommandReady :=
  ⟨h.seq, h.busReady, h.spiBusy, h.txOpen, h.txBusy, h.txBuf, h.cap⟩

/-! ### The stages -/

/-- How far a command is: accepted; in command mode, and on BATCHED its batch filled; started on the bus; delivered by
the bus environment; completed. -/
inductive CommandStage where
  | accepted
  | selected
  | started
  | delivered
  | done

/-- The stage after a quiet move: the block moves a command on, but for the delivery, which is the bus environment's. -/
@[simp] def CommandStage.after (tr : Transport) (st : CommandStage) (m : Move) : CommandStage :=
  match st, m, tr with
  | .accepted, .block, _ => .selected
  | .selected, .block, _ => .started
  | .started, .serialDone, .serial => .delivered
  | .started, .batchDone, .batched => .delivered
  | .delivered, .block, _ => .done
  | st, _, _ => st

/-- The events of a command of byte `c` up to a stage. -/
@[simp] def CommandStage.events (g : Cfg) (c : Byte) (st : CommandStage) : List Event :=
  match st, g.transport with
  | .accepted, _ => []
  | .selected, .serial | .started, .serial => [.pin (.dc .command)]
  | .selected, .batched | .started, .batched => []
  | .delivered, .serial => [.pin (.dc .command), .serial c]
  | .delivered, .batched => [.batch g.periphAddr (cmdBatch c)]
  | .done, _ => commandEvents g c

/-- A command accepted in `s`, in command mode, at `q`, with the events of stage `st`. -/
@[simp] def inCommandMode (s : State) (c : Byte) (src : CmdSource) (q : MicroState) (st : CommandStage) : State :=
  { s with
    lat := c
    cmdSrc := src
    seq := q
    mode := .holds .command
    trace := s.trace ++ st.events s.cfg c }

/-- The state of a command of byte `c` accepted in `s`, at a stage. -/
def commandAt (s : State) (c : Byte) (src : CmdSource) (st : CommandStage) : State :=
  match st, s.cfg.transport with
  | .accepted, _ => startCommand s c src
  | .selected, .serial => { inCommandMode s c src .cSend st with dc := .driven .command }
  | .selected, .batched => { inCommandMode s c src .cSend st with txOpen := true, txBuf := cmdBatch c }
  | .started, .serial =>
    { inCommandMode s c src .cRestore st with dc := .driven .command, spiDr := c, spiBusy := true }
  | .started, .batched => { inCommandMode s c src .cRestore st with txBusy := true, txBuf := cmdBatch c }
  | .delivered, .serial => { inCommandMode s c src .cRestore st with dc := .driven .command, spiDr := c }
  | .delivered, .batched => inCommandMode s c src .cRestore st
  | .done, _ => commandDone s c src s.sched

section Stages

variable {s : State} {c : Byte} {src : CmdSource}

theorem commandAt_withSched (st : CommandStage) (r : List Move) :
    { commandAt s c src st with sched := r } = commandAt { s with sched := r } c src st := by
  cases st <;> cases ht : s.cfg.transport <;> simp only [commandAt, ht] <;> rfl

/-! ### One quiet move -/

theorem microStep_ready (hq : s.seq = .ready) : microStep s = .next s := by
  simp [microStep, micro, hq]

/-- A turn of the block: it moves the command on, or waits for the delivery. -/
theorem microStep_commandAt (h : s.CommandReady) (st : CommandStage) :
    microStep (commandAt s c src st) = .next (commandAt s c src (st.after s.cfg.transport .block)) := by
  cases st <;> cases ht : s.cfg.transport <;> simp only [commandAt, ht, CommandStage.after]
  case accepted.serial =>
    rw [microStep_cEnter_serial]
    · simp [startCommand, ht]
    · rfl
    · exact ht
  case accepted.batched =>
    rw [microStep_cEnter_batched]
    · simp [startCommand, ht]
    · rfl
    · exact ht
    · exact h.busReady
    · exact h.txOpen
    · exact h.txBusy
    · exact h.cap ht
  case selected.serial =>
    rw [microStep_cSend_serial]
    · simp [ht]
    · rfl
    · exact ht
    · exact h.busReady
    · exact h.spiBusy
  case selected.batched =>
    rw [microStep_cSend_batched]
    · simp [ht, h.txOpen]
    · rfl
    · exact ht
    · rfl
  case started.serial =>
    refine microStep_cRestore_serial_busy ?_ ?_ ?_
    · rfl
    · exact ht
    · rfl
  case started.batched =>
    refine microStep_cRestore_batched_busy ?_ ?_ ?_
    · rfl
    · exact ht
    · rfl
  case delivered.serial =>
    rw [microStep_cRestore_serial]
    · simp [commandDone, commandEvents, ht, h.seq]
    · rfl
    · exact ht
    · exact h.spiBusy
  case delivered.batched =>
    rw [microStep_cRestore_batched]
    · simp [commandDone, commandEvents, ht, h.seq]
    · rfl
    · exact ht
    · exact h.txBusy
  case done.serial | done.batched => exact microStep_ready h.seq

/-- SerialDone delivers the byte of a command started on SERIAL; else there is none in flight. -/
theorem serialDone_commandAt (h : s.CommandReady) (st : CommandStage) :
    serialDone (commandAt s c src st) = commandAt s c src (st.after s.cfg.transport .serialDone) := by
  cases st <;> cases ht : s.cfg.transport <;> simp only [commandAt, ht, CommandStage.after]
  case started.serial => simp [serialDone, ht, h.spiBusy]
  all_goals exact if_neg (by simp [startCommand, commandDone, h.spiBusy])

/-- BatchDone delivers the batch of a command started on BATCHED; else there is none on its way. -/
theorem batchDone_commandAt (h : s.CommandReady) (st : CommandStage) :
    batchDone (commandAt s c src st) = commandAt s c src (st.after s.cfg.transport .batchDone) := by
  cases st <;> cases ht : s.cfg.transport <;> simp only [commandAt, ht, CommandStage.after]
  case started.batched =>
    simp [batchDone, ht, h.txBusy, h.txBuf]
  all_goals exact if_neg (by simp [startCommand, commandDone, h.txBusy])

/-- The micro-state of a stage (R31). -/
def CommandStage.seq : CommandStage → MicroState
  | .accepted => .cEnter
  | .selected => .cSend
  | .started | .delivered => .cRestore
  | .done => .ready

theorem commandAt_seq (h : s.CommandReady) (st : CommandStage) : (commandAt s c src st).seq = st.seq := by
  cases st <;> cases ht : s.cfg.transport <;> simp only [commandAt, ht]
  case done.serial | done.batched => exact h.seq
  all_goals rfl

/-- No interrupt wakes a block that is not asleep. -/
theorem wake_commandAt (h : s.CommandReady) (st : CommandStage) :
    wake (commandAt s c src st) = commandAt s c src st := by
  refine if_neg fun ⟨hsleep, _⟩ => ?_
  rw [commandAt_seq h] at hsleep
  cases st <;> cases hsleep

/-- Every quiet move takes a command from its stage to the next stage of `CommandStage.after`, and does nothing else. -/
theorem takeMove_commandAt (h : s.CommandReady) (st : CommandStage) {m : Move} (hm : m.quiet = true) :
    takeMove exec m (commandAt s c src st) = .next (commandAt s c src (st.after s.cfg.transport m)) := by
  cases m with
  | block => exact microStep_commandAt h st
  | serialDone => exact congrArg _ (serialDone_commandAt h st)
  | batchDone => exact congrArg _ (batchDone_commandAt h st)
  | irq =>
    rw [takeMove, wake_commandAt h]
    cases st <;> rfl
  | present | fbWrite | fbSupply | button | platform | foreignDrive | reset => cases hm

/-- The moves `ms`, all of them quiet, lead a command from stage to stage. -/
theorem plays_commandAt (h : s.CommandReady) {ms : List Move} (hms : ∀ m ∈ ms, m.quiet = true) (st : CommandStage) :
    Plays ms (commandAt s c src st) (commandAt s c src (ms.foldl (·.after s.cfg.transport) st)) := by
  induction ms generalizing st with
  | nil => exact Plays.nil _
  | cons m ms ih =>
    obtain ⟨hm, hms⟩ := List.forall_mem_cons.mp hms
    refine Plays.append (ms := [m]) (plays_move fun rest => ?_) (ih hms _)
    rw [commandAt_withSched, commandAt_withSched]
    exact takeMove_commandAt (h.withSched rest) st hm

/-- On a bus that never stalls a command completes in three turns of the block (R109, R173). -/
theorem plays_command (h : s.CommandReady) (c : Byte) (src : CmdSource) :
    Plays (promptTurns 3) (startCommand s c src) (commandDone s c src s.sched) := by
  have hplays := plays_commandAt (c := c) (src := src) h (ms := promptTurns 3) (by decide) .accepted
  cases ht : s.cfg.transport <;> simpa [commandAt, ht, promptTurns, CommandStage.after] using hplays

end Stages

end Sys2Proof.Machine
end

section
/-! PROOF. The command operations end as R109 and R110 say, under every quiet schedule and on a prompt bus, and touch
nothing else (R116). -/

namespace Sys2Proof.Machine

/-! ### Under every quiet schedule -/

/-- `u` is a stage of the command of byte `c` accepted in `s`, with quiet moves still to come. -/
def DuringCommand (s : State) (c : Byte) (src : CmdSource) (u : State) : Prop :=
  ∃ st r, r.all Move.quiet = true ∧ u = commandAt { s with sched := r } c src st

section Schedules

variable {s : State} {c : Byte} {src : CmdSource}

theorem commandAt_sched (st : CommandStage) : (commandAt s c src st).sched = s.sched := by
  cases st <;> cases ht : s.cfg.transport <;> simp only [commandAt, ht] <;> rfl

theorem duringCommand_step (h : s.CommandReady) {u v : State} (hu : DuringCommand s c src u) (hstep : step u = .next v) :
    DuringCommand s c src v := by
  obtain ⟨st, r, hr, rfl⟩ := hu
  cases r with
  | nil =>
    rw [step_nil (commandAt_sched st), microStep_commandAt (h.withSched [])] at hstep
    cases hstep
    exact ⟨_, [], hr, rfl⟩
  | cons m rest =>
    obtain ⟨hm, hrest⟩ : m.quiet = true ∧ rest.all Move.quiet = true := by simpa using hr
    rw [step_cons (commandAt_sched st), commandAt_withSched, takeMove_commandAt (h.withSched rest) st hm] at hstep
    cases hstep
    exact ⟨_, rest, hrest, rfl⟩

theorem duringCommand_run (h : s.CommandReady) (hcalm : s.calm = true) {k : Nat} {t : State}
    (hrun : run k (startCommand s c src) = .next t) : DuringCommand s c src t :=
  run_keeps (duringCommand_step h) ⟨.accepted, s.sched, hcalm, rfl⟩ hrun

end Schedules

theorem CommandStage.eq_done {st : CommandStage} (h : st.seq = .ready) : st = .done := by
  cases st with
  | done => rfl
  | accepted | selected | started | delivered => cases h

/-- Settles O22: a run of quiet moves is at one of the five stages, and only the last is in READY. -/
theorem commandEndStateUnderEverySchedule : Obligations.CommandEndStateUnderEverySchedule := by
  unfold Obligations.CommandEndStateUnderEverySchedule
  intro s s' t i c src k hinv hcalm hq hi hexec hrun hready
  have h := State.commandReady_of_inv hinv hq
  have hstart : exec i s = .next (startCommand s c src) := by
    obtain ⟨rfl, rfl⟩ | ⟨f, b, rfl, rfl, rfl⟩ := hi
    · exact exec_sendcmd c hq
    · rw [← exec_modeOp f b hq]
      rfl
  obtain rfl : startCommand s c src = s' := by simpa [hstart] using hexec
  obtain ⟨st, r, -, rfl⟩ := duringCommand_run h hcalm hrun
  rw [commandAt_seq (h.withSched r)] at hready
  obtain rfl := CommandStage.eq_done hready
  rfl

/-! ### What a command sends -/

theorem commandAt_trace (s : State) (c : Byte) (src : CmdSource) (st : CommandStage) :
    (commandAt s c src st).trace = s.trace ++ st.events s.cfg c := by
  cases st <;> cases ht : s.cfg.transport <;> simp [commandAt, ht, startCommand, commandDone]

theorem readIndices_events (g : Cfg) (c : Byte) (st : CommandStage) : readIndices (st.events g c) = [] := by
  cases st <;> cases ht : g.transport <;> simp [ht, commandEvents, readIndices]

/-- A command sends its one byte, in command mode, and leaves the display controller in data mode (R109, R112). -/
theorem wireFrom_commandEvents_append (g : Cfg) (c : Byte) (es : List Event) :
    wireFrom .data (commandEvents g c ++ es) = (.command, c) :: wireFrom .data es := by
  cases ht : g.transport <;> simp [commandEvents, ht, wireFrom, cmdBatch]

theorem wireFrom_commandEvents (g : Cfg) (c : Byte) : wireFrom .data (commandEvents g c) = [(.command, c)] := by
  simpa [wireFrom] using wireFrom_commandEvents_append g c []

/-- The registers that no stage of a command touches (R116). -/
theorem commandAt_frame (s : State) (c : Byte) (src : CmdSource) (st : CommandStage) :
    (commandAt s c src st).rst = s.rst ∧ (commandAt s c src st).cs = s.cs ∧ (commandAt s c src st).fb = s.fb ∧
      (commandAt s c src st).fbLen = s.fbLen ∧ (commandAt s c src st).phase = s.phase ∧
      (commandAt s c src st).ind = s.ind ∧ (commandAt s c src st).pwrGated = s.pwrGated := by
  cases st <;> cases ht : s.cfg.transport <;> simp only [commandAt, ht] <;> exact ⟨rfl, rfl, rfl, rfl, rfl, rfl, rfl⟩

/-- Settles O25: no stage touches the registers named, and the events of the last hold one byte. -/
theorem modeOperationsTouchNothingElse : Obligations.ModeOperationsTouchNothingElse := by
  unfold Obligations.ModeOperationsTouchNothingElse
  intro s s' t i k hinv hcalm hq hi hexec hrun
  have h := State.commandReady_of_inv hinv hq
  obtain ⟨f, b, rfl⟩ := exists_eq_modeOp hi
  obtain rfl : startCommand s (cmdRom s.cfg f b) (.flag f b) = s' := by simpa [exec_modeOp f b hq] using hexec
  obtain ⟨st, r, -, rfl⟩ := duringCommand_run h hcalm hrun
  obtain ⟨hrst, hcs, hfb, hlen, hphase, hind, hgated⟩ :=
    commandAt_frame { s with sched := r } (cmdRom s.cfg f b) (.flag f b) st
  refine ⟨hrst, hcs, hfb, hlen, hphase, hind, hgated, _, commandAt_trace _ _ _ st, readIndices_events _ _ st,
    fun hready => ?_⟩
  rw [commandAt_seq (h.withSched r)] at hready
  obtain rfl := CommandStage.eq_done hready
  exact congrArg List.length (wireFrom_commandEvents s.cfg _)

/-! ### On a bus that never stalls -/

/-- Settles O23: each is accepted as a command, which three prompt turns complete. -/
theorem commandsCompleteOnAPromptBus : Obligations.CommandsCompleteOnAPromptBus := by
  unfold Obligations.CommandsCompleteOnAPromptBus
  intro s i rest hinv hq hi
  have h := State.commandReady_of_inv hinv hq
  obtain ⟨c, src, hexec⟩ : ∃ c src, exec i { s with sched := promptTurns 3 ++ rest } =
      .next { startCommand s c src with sched := promptTurns 3 ++ rest } := by
    obtain ⟨k, rfl⟩ | hmode := hi
    · exact ⟨k, .raw, exec_sendcmd k hq⟩
    · obtain ⟨f, b, rfl⟩ := exists_eq_modeOp hmode
      exact ⟨_, _, exec_modeOp f b hq⟩
  exact ⟨_, _, hexec, plays_command h c src rest, hq, rfl⟩

theorem Plays.run_of_sched {ms rest : List Move} {s t : State} (h : Plays ms s t) (hsched : s.sched = ms ++ rest) :
    run ms.length s = .next { t with sched := rest } := by
  have hrun := h rest
  rwa [← hsched] at hrun

/-- The host presents the word of an operation, and it is accepted. -/
theorem plays_present {s t : State} {i : Instr} (hwf : i.wf s.cfg = true)
    (h : ∀ rest, exec i { s with sched := rest } = .next { t with sched := rest }) :
    Plays [.present (encode i)] s t :=
  plays_move fun rest => presentWord_eq_next.mpr ⟨i, by simp [decodeFor_encode, hwf], h rest⟩

/-- A mode operation presented by the host on a bus that never stalls (R110). -/
theorem plays_modeOp {s : State} (h : s.CommandReady) (f : DispFlag) (b : Bool) :
    Plays (.present (encode (modeOp f b)) :: promptTurns 3) s
      (commandDone s (cmdRom s.cfg f b) (.flag f b) s.sched) := by
  have hwf : (modeOp f b).wf s.cfg = true := by cases f <;> rfl
  have hstart : Plays [.present (encode (modeOp f b))] s (startCommand s (cmdRom s.cfg f b) (.flag f b)) :=
    plays_present hwf fun rest => exec_modeOp (s := { s with sched := rest }) f b h.seq
  exact hstart.append (plays_command h _ _)

theorem cfg_inv_distinct {c : Cfg} (h : c.wf = true) : c.cmd.inv.on ≠ c.cmd.inv.off := by
  simp only [Cfg.wf, CmdTable.distinct, Bool.and_eq_true, bne_iff_ne, and_assoc] at h
  obtain ⟨-, -, -, -, -, hinv, -⟩ := h
  exact hinv

theorem dispOk_invalid {s : State} (h : dispOk s = true) (hvalid : s.disp.valid = false) :
    s.disp = (Disp.reset s.cfg.frameLen).invalidate := by
  simp only [dispOk, hvalid, Bool.and_eq_true] at h
  obtain ⟨-, hdisp⟩ := h
  simpa using hdisp

/-- The flag a mode operation leaves: its operand while the ghost is valid (R46). -/
theorem afterCommand_inverted_pair {s : State} (hinv : s.inv = true) :
    ((s.disp.afterCommand (.flag .inv true)).afterCommand (.flag .inv false)).inverted =
      if s.disp.valid then some false else none := by
  obtain ⟨-, -, -, -, -, -, hdisp, -⟩ := State.inv_iff.mp hinv
  cases hvalid : s.disp.valid with
  | true => simp [Disp.afterCommand, Disp.setFlag, hvalid]
  | false => simp [Disp.afterCommand, dispOk_invalid hdisp hvalid, Disp.invalidate]

/-- Settles O24: the two operations play one after the other, each with its one byte. -/
theorem invertPairSendsTwoDistinctBytes : Obligations.InvertPairSendsTwoDistinctBytes := by
  unfold Obligations.InvertPairSendsTwoDistinctBytes
  intro s rest hinv hq hsched
  have h := State.commandReady_of_inv hinv hq
  obtain ⟨hwf, -⟩ := State.inv_iff.mp hinv
  have hpair := (plays_modeOp h .inv true).append (plays_modeOp (h.commandDone _ _ s.sched) .inv false)
  refine ⟨_, commandEvents s.cfg s.cfg.cmd.inv.on ++ commandEvents s.cfg s.cfg.cmd.inv.off,
    hpair.run_of_sched hsched, List.append_assoc .., ?_, cfg_inv_distinct hwf, afterCommand_inverted_pair hinv⟩
  rw [wireFrom_commandEvents_append, wireFrom_commandEvents]

end Sys2Proof.Machine
end

section
/-! PROOF. Data mode between operations (R105, R197): BOOT and every command operation end in it, a PAINT and a sleep keep
it, and only ENTERCMD leaves it. -/

namespace Sys2Proof.Machine

/-! ### The states between operations -/

/-- READY, or a state that becomes READY without setting the mode: `dataReady` asks for data mode in these. -/
def MicroState.keepsMode : MicroState → Bool
  | .ready | .pFetch | .pSend | .pDrain | .qOpen | .qFill | .qClose | .iSleep => true
  | _ => false

theorem dataReady_iff {s : State} : dataReady s = true ↔ (s.seq.keepsMode = true → s.mode = .holds .data) := by
  cases hq : s.seq <;> simp [dataReady, MicroState.keepsMode, hq]

theorem dataReady_of_mode {s : State} (h : s.mode = .holds .data) : dataReady s = true := dataReady_iff.mpr fun _ => h

theorem dataReady_of_seq {s : State} (h : s.seq.keepsMode = false) : dataReady s = true :=
  dataReady_iff.mpr fun hk => absurd (h.symm.trans hk) Bool.false_ne_true

theorem dataReady_mode {s : State} {q : MicroState} (h : dataReady s = true) (hq : s.seq = q)
    (hk : q.keepsMode = true) : s.mode = .holds .data := dataReady_iff.mp h (hq ▸ hk)

/-! ### The block -/

theorem State.mode_of_b7Pwr {s : State} (h : linesOk s = true) (hq : s.seq = .b7Pwr) : s.mode = .holds .data := by
  cases hm : s.mode <;> simp_all [linesOk, linesOperating]

theorem microQFill_mode (s : State) : (microQFill s).Ensures (·.mode = s.mode) := by
  unfold microQFill; split <;> simp

theorem microQClose_mode (s : State) : (microQClose s).Ensures (·.mode = s.mode) := by
  unfold microQClose
  split
  · simp
  · refine ensures_await.mpr fun _ => ?_
    split <;> simp [finishPaint]

/-- The micro-states of a PAINT, and those in which the block holds, leave the mode as it is. -/
theorem micro_mode {s : State} (h : s.seq.keepsMode = true) : (micro s).Ensures (·.mode = s.mode) := by
  unfold micro
  cases hq : s.seq with
  | ready | iSleep => exact Micro.ensures_wait
  | pFetch => simp [microPFetch]
  | pSend => simp [microPSend]
  | pDrain => simp [microPDrain, finishPaint]
  | qOpen => simp [microQOpen]
  | qFill => exact microQFill_mode s
  | qClose => exact microQClose_mode s
  | _ => simp [hq, MicroState.keepsMode] at h

theorem microB1Safe_dataReady (s : State) : (microB1Safe s).Ensures (dataReady · = true) := by
  unfold microB1Safe; split <;> exact Micro.ensures_go.mpr (dataReady_of_seq rfl)

theorem startBootByte_seq (b : Byte) (s : State) : (startBootByte b s).Ensures (·.seq = s.seq) := by
  unfold startBootByte; split <;> simp

theorem microB5Prog_dataReady {s : State} (hq : s.seq = .b5Prog) : (microB5Prog s).Ensures (dataReady · = true) := by
  unfold microB5Prog
  refine ensures_await.mpr fun _ => ?_
  split
  · exact fun t ht => dataReady_of_seq (by rw [startBootByte_seq _ s t ht, hq]; rfl)
  · exact Micro.ensures_go.mpr (dataReady_of_seq rfl)

theorem microCEnter_dataReady (s : State) : (microCEnter s).Ensures (dataReady · = true) := by
  unfold microCEnter; split <;> simp [dataReady]

theorem microCSend_dataReady (s : State) : (microCSend s).Ensures (dataReady · = true) := by
  unfold microCSend; split <;> simp [dataReady]

theorem finishCommand_mode (s : State) : (finishCommand s).mode = .holds .data := s.enterMode_mode .data

theorem microCRestore_dataReady (s : State) : (microCRestore s).Ensures (dataReady · = true) := by
  unfold microCRestore
  split <;> exact ensures_await.mpr fun _ => Micro.ensures_go.mpr (dataReady_of_mode (finishCommand_mode s))

/-- One case for each micro-state of R31. -/
theorem micro_dataReady {s : State} (hlines : linesOk s = true) (h : dataReady s = true) :
    (micro s).Ensures (dataReady · = true) := by
  by_cases hk : s.seq.keepsMode = true
  · exact fun t ht => dataReady_of_mode ((micro_mode hk t ht).trans (dataReady_mode h rfl hk))
  · unfold micro
    cases hq : s.seq with
    | wBoot | hSafe | hLoader => exact Micro.ensures_wait
    | b1Pins | b2Bus | b3RstLo | b3Hold | b3RstHi | b3Settle | b4Cs | b5Cmd | b6Data | xIrq | xLink | xHandoff =>
      exact Micro.ensures_go.mpr (dataReady_of_seq rfl)
    | b1Safe => exact microB1Safe_dataReady s
    | b5Prog => exact microB5Prog_dataReady hq
    | b7Pwr =>
      have hmode := State.mode_of_b7Pwr hlines hq
      exact Micro.ensures_go.mpr (dataReady_of_mode hmode)
    | cEnter => exact microCEnter_dataReady s
    | cSend => exact microCSend_dataReady s
    | cRestore => exact microCRestore_dataReady s
    | ready | iSleep | pFetch | pSend | pDrain | qOpen | qFill | qClose => simp [hq, MicroState.keepsMode] at hk

theorem microStep_dataReady {s t : State} (hlines : linesOk s = true) (h : dataReady s = true)
    (hstep : microStep s = .next t) : dataReady t = true := by
  obtain hgo | ⟨-, rfl⟩ := Micro.turn_eq_next.mp hstep
  · exact micro_dataReady hlines h t hgo
  · exact h

/-! ### The operations and the other agents -/

/-- Of the operations accepted in READY, PAINT, IDLE and SETIND leave the mode as it is, and only ENTERCMD sets command
mode in READY. -/
theorem exec_dataReady {i : Instr} {s t : State} (hi : i ≠ .entercmd) (h : dataReady s = true)
    (hexec : exec i s = .next t) : dataReady t = true := by
  have hmode : s.seq = .ready → s.mode = .holds .data := fun hq => dataReady_mode h hq rfl
  have ht := exec_next hexec
  subst ht
  cases i with
  | boot | exithalt | setpwr | setinv | setallon | setfliph | setflipv | sendcmd => exact dataReady_of_seq rfl
  | enterdata => exact dataReady_of_mode (s.enterMode_mode .data)
  | paint | idle =>
    obtain ⟨hq, -⟩ := acceptReady_eq_next.mp hexec
    exact dataReady_of_mode (hmode hq)
  | setind ch v =>
    rw [exec, execSetind] at hexec
    split at hexec
    · obtain ⟨hq, -⟩ := acceptReady_eq_next.mp hexec
      exact dataReady_of_mode (hmode hq)
    · cases hexec
  | entercmd => exact absurd rfl hi

theorem wake_dataReady {s : State} (h : dataReady s = true) : dataReady (wake s) = true := by
  obtain ⟨hq, -, hw⟩ | ⟨-, hw⟩ := wake_cases s <;> rw [hw]
  · have hmode := dataReady_mode h hq rfl
    exact dataReady_of_mode hmode
  · exact h

theorem takeMove_dataReady {m : Move} {s t : State} (hlines : linesOk s = true) (h : dataReady s = true)
    (hm : m ≠ .present (encode .entercmd)) (hmove : takeMove exec m s = .next t) : dataReady t = true := by
  cases m with
  | block => exact microStep_dataReady hlines h hmove
  | present w =>
    obtain ⟨i, hdecode, hexec⟩ := presentWord_eq_next.mp hmove
    obtain ⟨rfl, -⟩ := eq_encode_of_decodeFor hdecode
    exact exec_dataReady (fun hi => hm (hi ▸ rfl)) h hexec
  | fbWrite i v =>
    obtain ⟨-, -, rfl⟩ := hostFbWrite_eq_next.mp hmove
    exact h
  | fbSupply bs =>
    obtain ⟨-, rfl⟩ := hostFbSupply_eq_next.mp hmove
    exact h
  | platform i l =>
    obtain ⟨-, rfl⟩ := platformSet_eq_next.mp hmove
    exact h
  | serialDone =>
    cases hmove
    obtain ⟨-, hd⟩ | ⟨-, hd⟩ := serialDone_cases s <;> rw [hd] <;> exact h
  | batchDone =>
    cases hmove
    obtain ⟨-, hd⟩ | ⟨-, hd⟩ := batchDone_cases s <;> rw [hd] <;> exact h
  | irq => cases hmove; exact wake_dataReady h
  | button held => cases hmove; exact h
  | foreignDrive => cases hmove
  | reset p => cases hmove; exact dataReady_of_seq rfl

/-- Settles O51: a step is a turn of the block or a move, and no move but ENTERCMD's word leaves command mode in a state
between operations. -/
theorem dataModeIsKeptWithoutEntercmd : Obligations.DataModeIsKeptWithoutEntercmd := by
  unfold Obligations.DataModeIsKeptWithoutEntercmd
  intro s t hinv h hstep hne
  obtain ⟨-, -, -, -, hlines, -⟩ := State.inv_iff.mp hinv
  obtain ⟨-, hblock⟩ | ⟨m, rest, hsched, hmove⟩ := step_cases hstep
  · exact microStep_dataReady hlines h hblock
  · have hm : m ≠ .present (encode .entercmd) := fun hm => hne rest (by rw [hsched, hm]; rfl)
    exact takeMove_dataReady (s := { s with sched := rest }) hlines h hm hmove

end Sys2Proof.Machine
end

section
/-! PROOF. The acceptance and the micro-steps of BOOT (R120 to R129). -/

namespace Sys2Proof.Machine

/-! ### Acceptance (R120) -/

theorem execBoot_wBoot {s : State} (hq : s.seq = .wBoot) : exec .boot s = .next (s.goto .b1Pins) := if_pos hq

theorem execBoot_elsewhere {s : State} (hq : s.seq ≠ .wBoot) : refuses (exec .boot s) = true := by
  rw [exec, execBoot, if_neg hq]
  split <;> rfl

/-- Settles O13: BOOT is accepted by `goto`, in one state. -/
theorem bootStarts : Obligations.BootStarts := by
  unfold Obligations.BootStarts
  exact ⟨rfl, fun _ => execBoot_wBoot, fun _ => execBoot_elsewhere⟩

/-! ### The micro-steps before and after the boot program -/

theorem microStep_b1Pins {s : State} (hq : s.seq = .b1Pins) :
    microStep s = .next { s with
      rst := .driven s.cfg.pinInit.rst, cs := .driven s.cfg.pinInit.cs, dc := .driven s.cfg.pinInit.dc
      ind := List.replicate s.cfg.nChannels (indOff s.cfg), trace := s.trace ++ [.portsInit], seq := .b1Safe } := by
  simp [microStep, micro, hq, microB1Pins]

theorem microStep_b1Safe_held {s : State} (hq : s.seq = .b1Safe) (hheld : s.btnConfirm = true) :
    microStep s = .next (enterSafeHalt (s.emit (.button true))) := by
  simp [microStep, micro, hq, microB1Safe, hheld]

theorem microStep_b1Safe {s : State} (hq : s.seq = .b1Safe) (hfree : s.btnConfirm = false) :
    microStep s = .next { s with trace := s.trace ++ [.button false], seq := .b2Bus } := by
  simp [microStep, micro, hq, microB1Safe, hfree, State.goto, State.emit]

theorem microStep_b2Bus {s : State} (hq : s.seq = .b2Bus) : microStep s = .next ((initBus s).goto .b3RstLo) := by
  simp [microStep, micro, hq, microB2Bus]

theorem initBus_serial {s : State} (ht : s.cfg.transport = .serial) :
    initBus s = { s with busReady := true, spiBusy := false, trace := s.trace ++ [.busInit .serial] } := by
  simp [initBus, ht]

theorem initBus_batched {s : State} (ht : s.cfg.transport = .batched) :
    initBus s = { s with
      busReady := true, txOpen := false, txBusy := false, txBuf := [], trace := s.trace ++ [.busInit .batched] } := by
  simp [initBus, ht]

theorem microStep_b3RstLo {s : State} (hq : s.seq = .b3RstLo) :
    microStep s = .next { s with
      rst := .driven .low, trace := s.trace ++ [.pin (.rst .low)], seq := .b3Hold } := by
  simp [microStep, micro, hq, microB3RstLo, State.goto, State.driveRst]

theorem microStep_b3Hold {s : State} (hq : s.seq = .b3Hold) :
    microStep s = .next { s with trace := s.trace ++ [.delay s.cfg.tRstHoldMs], seq := .b3RstHi } := by
  simp [microStep, micro, hq, microB3Hold, State.goto, State.emit]

theorem microStep_b3RstHi {s : State} (hq : s.seq = .b3RstHi) :
    microStep s = .next { s with
      rst := .driven .high, trace := s.trace ++ [.pin (.rst .high)], seq := .b3Settle } := by
  simp [microStep, micro, hq, microB3RstHi, State.goto, State.driveRst]

theorem microStep_b3Settle {s : State} (hq : s.seq = .b3Settle) :
    microStep s = .next { s with trace := s.trace ++ [.delay s.cfg.tRstSettleMs], seq := .b4Cs } := by
  simp [microStep, micro, hq, microB3Settle, State.goto, State.emit]

theorem microStep_b4Cs {s : State} (hq : s.seq = .b4Cs) :
    microStep s = .next { s with
      cs := .driven .asserted, trace := s.trace ++ [.pin (.cs .asserted)], seq := .b5Cmd } := by
  simp [microStep, micro, hq, microB4Cs, State.goto, State.driveCs]

theorem microStep_b5Cmd {s : State} (hq : s.seq = .b5Cmd) :
    microStep s = .next { s.enterMode .command with bpIdx := 0, seq := .b5Prog } := by
  simp [microStep, micro, hq, microB5Cmd]

theorem microStep_b6Data {s : State} (hq : s.seq = .b6Data) :
    microStep s = .next ((s.enterMode .data).goto .b7Pwr) := by
  simp [microStep, micro, hq, microB6Data]

theorem microStep_b7Pwr {s : State} (hq : s.seq = .b7Pwr) :
    microStep s = .next { s with
      pwrGated := s.cfg.unusedDomains, trace := s.trace ++ [.pwrGate s.cfg.unusedDomains], disp := s.disp.afterBoot
      seq := .ready, phase := .running } := by
  simp [microStep, micro, hq, microB7Pwr]

/-- Settles O17: one equation for each micro-step, on each transport where the two differ. -/
theorem bootMicroStepsAsWritten : Obligations.BootMicroStepsAsWritten := by
  unfold Obligations.BootMicroStepsAsWritten
  refine ⟨fun _ => microStep_b1Pins, fun _ => microStep_b1Safe, ?busSerial, ?busBatched, fun _ => microStep_b3RstLo,
    fun _ => microStep_b3Hold, fun _ => microStep_b3RstHi, fun _ => microStep_b3Settle, fun _ => microStep_b4Cs,
    ?cmdSerial, ?cmdBatched, ?dataSerial, ?dataBatched, fun _ => microStep_b7Pwr⟩
  case busSerial => exact fun s hq ht => by rw [microStep_b2Bus hq, initBus_serial ht, State.goto]
  case busBatched => exact fun s hq ht => by rw [microStep_b2Bus hq, initBus_batched ht, State.goto]
  case cmdSerial => exact fun s hq ht => by rw [microStep_b5Cmd hq, State.enterMode_serial _ _ ht]
  case cmdBatched => exact fun s hq ht => by rw [microStep_b5Cmd hq, State.enterMode_batched _ _ ht]
  case dataSerial => exact fun s hq ht => by rw [microStep_b6Data hq, State.enterMode_serial _ _ ht, State.goto]
  case dataBatched => exact fun s hq ht => by rw [microStep_b6Data hq, State.enterMode_batched _ _ ht, State.goto]

/-! ### The boot program (R127) -/

theorem microStep_b5Prog_busy {s : State} (hq : s.seq = .b5Prog) (hbusy : bootBusFree s = false) :
    microStep s = .next s := by
  simp [microStep, micro, hq, microB5Prog, hbusy]

theorem microStep_b5Prog_end {s : State} (hq : s.seq = .b5Prog) (hfree : bootBusFree s = true)
    (hend : bootRom s.cfg s.bpIdx = none) : microStep s = .next (s.goto .b6Data) := by
  simp [microStep, micro, hq, microB5Prog, hfree, hend]

theorem microStep_b5Prog_serial {s : State} {b : Byte} (hq : s.seq = .b5Prog) (ht : s.cfg.transport = .serial)
    (hready : s.busReady = true) (hidle : s.spiBusy = false) (hb : bootRom s.cfg s.bpIdx = some b) :
    microStep s = .next { s with spiDr := b, spiBusy := true, bpIdx := s.bpIdx + 1 } := by
  simp [microStep, micro, hq, microB5Prog, bootBusFree, ht, hb, startBootByte, xferStart, hready, hidle]

theorem microStep_b5Prog_batched {s : State} {b : Byte} (hq : s.seq = .b5Prog) (ht : s.cfg.transport = .batched)
    (hready : s.busReady = true) (hopen : s.txOpen = false) (hbusy : s.txBusy = false) (hcap : 2 ≤ s.cfg.txbufCap)
    (hb : bootRom s.cfg s.bpIdx = some b) :
    microStep s = .next { s with
      txOpen := false, txBusy := true, txBuf := cmdBatch b, bpIdx := s.bpIdx + 1 } := by
  have hcap0 : 0 < s.cfg.txbufCap := by omega
  have hcap1 : 1 < s.cfg.txbufCap := hcap
  simp [microStep, micro, hq, microB5Prog, bootBusFree, ht, hb, startBootByte, txBegin, txWrite, txEndStart, hready,
    hopen, hbusy, hcap0, hcap1, cmdBatch]

end Sys2Proof.Machine
end

section
/-! PROOF. The life of BOOT from its acceptance to READY, or to the safe-mode halt, under every quiet schedule (R121 to
R131): the block moves it on, the bus environment delivers the bytes of the boot program, and no quiet move does
anything else. -/

namespace Sys2Proof.Machine

/-! ### The state in which BOOT is accepted -/

/-- Nothing started on either transport, and room for a command batch (R12, R35). -/
structure State.BootReady (s : State) : Prop where
  spiBusy : s.spiBusy = false
  txOpen : s.txOpen = false
  txBusy : s.txBusy = false
  txBuf : s.txBuf = []
  cap : s.cfg.transport = .batched → 2 ≤ s.cfg.txbufCap

theorem State.bootReady_of_inv {s : State} (hinv : s.inv = true) (hq : s.seq = .wBoot) : s.BootReady := by
  obtain ⟨hwf, -, -, hbus, -⟩ := State.inv_iff.mp hinv
  simp only [busOk, hq, busQuiet, Bool.and_eq_true, Bool.not_eq_true', decide_eq_true_eq, and_assoc] at hbus
  obtain ⟨-, hspi, hopen, htx, hbuf⟩ := hbus
  exact ⟨hspi, hopen, htx, hbuf, cfg_txbufCap hwf⟩

theorem State.BootReady.withSched {s : State} (h : s.BootReady) (r : List Move) : { s with sched := r }.BootReady :=
  ⟨h.spiBusy, h.txOpen, h.txBusy, h.txBuf, h.cap⟩

/-! ### The stages -/

/-- How far BOOT is: about to take the micro-state of the name; in the boot program, with `i` bytes delivered and none
or one more on its way; completed; halted in safe mode. -/
inductive BootStage where
  | pins
  | safe
  | bus
  | rstLo
  | hold
  | rstHi
  | settle
  | cs
  | cmd
  | prog (i : Nat)
  | sending (i : Nat)
  | data
  | pwr
  | done
  | halted

/-- The stage after a turn of the block; `held` is the button. A byte on its way is waited for. -/
@[simp] def BootStage.next (g : Cfg) (held : Bool) (st : BootStage) : BootStage :=
  match st with
  | .pins => .safe
  | .safe => if held then .halted else .bus
  | .bus => .rstLo
  | .rstLo => .hold
  | .hold => .rstHi
  | .rstHi => .settle
  | .settle => .cs
  | .cs => .cmd
  | .cmd => .prog 0
  | .prog i => if i < g.bootLen then .sending i else .data
  | .sending i => .sending i
  | .data => .pwr
  | .pwr => .done
  | .done => .done
  | .halted => .halted

/-- The stage after the bus environment has delivered what is on its way. -/
@[simp] def BootStage.delivered (st : BootStage) : BootStage :=
  match st with
  | .sending i => .prog (i + 1)
  | st => st

/-- The stage after a quiet move. -/
def BootStage.after (g : Cfg) (held : Bool) (st : BootStage) (m : Move) : BootStage :=
  match m, g.transport with
  | .block, _ => st.next g held
  | .serialDone, .serial | .batchDone, .batched => st.delivered
  | _, _ => st

/-- The stages a BOOT can be at: the button decides on the halt, and the boot program has `L` bytes. -/
@[simp] def BootStage.Reachable (g : Cfg) (held : Bool) (st : BootStage) : Prop :=
  match st with
  | .pins | .safe => True
  | .halted => held = true
  | .prog i => held = false ∧ i ≤ g.bootLen
  | .sending i => held = false ∧ i < g.bootLen
  | _ => held = false

theorem BootStage.Reachable.next {g : Cfg} {held : Bool} {st : BootStage} (h : st.Reachable g held) :
    (st.next g held).Reachable g held := by
  cases st with
  | safe => cases held <;> simp
  | prog i =>
    obtain ⟨hheld, -⟩ := h
    by_cases hi : i < g.bootLen <;> simp [hi, hheld]
  | cmd => exact ⟨h, Nat.zero_le _⟩
  | pins => trivial
  | bus | rstLo | hold | rstHi | settle | cs | sending | data | pwr | done | halted => exact h

theorem BootStage.Reachable.delivered {g : Cfg} {held : Bool} {st : BootStage} (h : st.Reachable g held) :
    st.delivered.Reachable g held := by
  cases st <;> exact h

theorem BootStage.Reachable.after {g : Cfg} {held : Bool} {st : BootStage} (h : st.Reachable g held) (m : Move) :
    (st.after g held m).Reachable g held := by
  unfold BootStage.after
  split
  · exact h.next
  · exact h.delivered
  · exact h.delivered
  · exact h

/-! ### The state at a stage -/

/-- The events of BOOT up to boot step 4 (R130). -/
@[simp] def bootPrelude (g : Cfg) : List Event :=
  [.portsInit, .button false, .busInit g.transport, .pin (.rst .low), .delay g.tRstHoldMs, .pin (.rst .high),
    .delay g.tRstSettleMs, .pin (.cs .asserted)]

/-- The events of boot step 5 with `n` bytes of the boot program delivered (R127, R130). -/
def bootBytesEvents (g : Cfg) (n : Nat) : List Event :=
  match g.transport with
  | .serial => .pin (.dc .command) :: (g.bootProgram.take n).map .serial
  | .batched => (g.bootProgram.take n).map fun b => .batch g.periphAddr (cmdBatch b)

/-- The data register with `n` bytes of the boot program started (R127). -/
def bootSpiDr (s : State) (n : Nat) : Byte :=
  match s.cfg.transport with
  | .serial => (s.cfg.bootProgram.take n).getLast?.getD s.spiDr
  | .batched => s.spiDr

/-- The DC line in mode `m` after boot step 1 (R106, R121). -/
def bootDc (g : Cfg) (m : LinkMode) : Latch LinkMode :=
  match g.transport with
  | .serial => .driven m
  | .batched => .driven g.pinInit.dc

/-- BOOT of `s` at `q` after boot step 1a, with the first `n` events of its trace (R121). -/
@[simp] def afterPorts (s : State) (q : MicroState) (n : Nat) : State :=
  { s with
    seq := q
    rst := .driven s.cfg.pinInit.rst
    cs := .driven s.cfg.pinInit.cs
    dc := .driven s.cfg.pinInit.dc
    ind := List.replicate s.cfg.nChannels (indOff s.cfg)
    trace := s.trace ++ (bootPrelude s.cfg).take n }

/-- BOOT of `s` at `q` after boot step 2, with RST at `r` and the first `n` events of its trace (R123, R124). -/
@[simp] def afterBus (s : State) (q : MicroState) (r : RstLevel) (n : Nat) : State :=
  { afterPorts s q n with busReady := true, rst := .driven r }

/-- BOOT of `s` at `q` after boot step 5a, with `started` bytes of the boot program started and `sent` of them delivered
(R126, R127). -/
@[simp] def afterCmd (s : State) (q : MicroState) (started sent : Nat) : State :=
  { afterBus s q .high 8 with
    cs := .driven .asserted
    dc := bootDc s.cfg .command
    mode := .holds .command
    bpIdx := started
    spiDr := bootSpiDr s started
    trace := s.trace ++ bootPrelude s.cfg ++ bootBytesEvents s.cfg sent }

/-- BOOT of `s` with byte `i` of the boot program on its way (R127). -/
@[simp] def sendingBootByte (s : State) (i : Nat) : State :=
  match s.cfg.transport with
  | .serial => { afterCmd s .b5Prog (i + 1) i with spiBusy := true }
  | .batched =>
    { afterCmd s .b5Prog (i + 1) i with txBusy := true, txBuf := cmdBatch (s.cfg.bootProgram.getD i 0#8) }

/-- The state of a BOOT accepted in `s`, at a stage. -/
def bootAt (s : State) (st : BootStage) : State :=
  match st with
  | .pins => s.goto .b1Pins
  | .safe => afterPorts s .b1Safe 1
  | .bus => afterPorts s .b2Bus 2
  | .rstLo => afterBus s .b3RstLo s.cfg.pinInit.rst 3
  | .hold => afterBus s .b3Hold .low 4
  | .rstHi => afterBus s .b3RstHi .low 5
  | .settle => afterBus s .b3Settle .high 6
  | .cs => afterBus s .b4Cs .high 7
  | .cmd => { afterBus s .b5Cmd .high 8 with cs := .driven .asserted }
  | .prog i => afterCmd s .b5Prog i i
  | .sending i => sendingBootByte s i
  | .data => afterCmd s .b6Data s.cfg.bootLen s.cfg.bootLen
  | .pwr =>
    { afterCmd s .b7Pwr s.cfg.bootLen s.cfg.bootLen with
      dc := bootDc s.cfg .data
      mode := .holds .data
      trace := s.trace ++ bootPrelude s.cfg ++ bootProgEvents s.cfg }
  | .done => bootDone s s.sched
  | .halted => safeModeDone s s.sched

section Stages

variable {s : State}

theorem bootAt_withSched (st : BootStage) (r : List Move) :
    { bootAt s st with sched := r } = bootAt { s with sched := r } st := by
  cases st with
  | sending i => cases ht : s.cfg.transport <;> simp only [bootAt, sendingBootByte, ht] <;> rfl
  | _ => rfl

/-- The micro-state of a stage (R31). -/
def BootStage.seq : BootStage → MicroState
  | .pins => .b1Pins
  | .safe => .b1Safe
  | .bus => .b2Bus
  | .rstLo => .b3RstLo
  | .hold => .b3Hold
  | .rstHi => .b3RstHi
  | .settle => .b3Settle
  | .cs => .b4Cs
  | .cmd => .b5Cmd
  | .prog _ | .sending _ => .b5Prog
  | .data => .b6Data
  | .pwr => .b7Pwr
  | .done => .ready
  | .halted => .hSafe

theorem bootAt_seq (st : BootStage) : (bootAt s st).seq = st.seq := by
  cases st with
  | sending i => cases ht : s.cfg.transport <;> simp only [bootAt, sendingBootByte, ht] <;> rfl
  | _ => rfl

/-! ### The boot program, byte by byte -/

theorem bootRom_of_lt {g : Cfg} {i : Nat} (hi : i < g.bootLen) : bootRom g i = some (g.bootProgram.getD i 0#8) := by
  unfold Cfg.bootLen at hi
  simp [bootRom, hi]

theorem bootRom_bootLen (g : Cfg) : bootRom g g.bootLen = none :=
  List.getElem?_eq_none (Nat.le_refl _)

theorem take_succ_bootProgram {g : Cfg} {i : Nat} (hi : i < g.bootLen) :
    g.bootProgram.take (i + 1) = g.bootProgram.take i ++ [g.bootProgram.getD i 0#8] := by
  have hb : g.bootProgram[i]? = some (g.bootProgram.getD i 0#8) := bootRom_of_lt hi
  rw [List.take_add_one, hb, Option.toList_some]

/-- A byte started on SERIAL is in the data register. -/
theorem bootSpiDr_succ {i : Nat} (ht : s.cfg.transport = .serial) (hi : i < s.cfg.bootLen) :
    bootSpiDr s (i + 1) = s.cfg.bootProgram.getD i 0#8 := by
  simp [bootSpiDr, ht, take_succ_bootProgram hi]

theorem bootSpiDr_batched (n : Nat) (ht : s.cfg.transport = .batched) : bootSpiDr s n = s.spiDr := by
  simp [bootSpiDr, ht]

theorem bootBytesEvents_succ_serial {g : Cfg} {i : Nat} (ht : g.transport = .serial) (hi : i < g.bootLen) :
    bootBytesEvents g (i + 1) = bootBytesEvents g i ++ [.serial (g.bootProgram.getD i 0#8)] := by
  simp [bootBytesEvents, ht, take_succ_bootProgram hi]

theorem bootBytesEvents_succ_batched {g : Cfg} {i : Nat} (ht : g.transport = .batched) (hi : i < g.bootLen) :
    bootBytesEvents g (i + 1) =
      bootBytesEvents g i ++ [.batch g.periphAddr (cmdBatch (g.bootProgram.getD i 0#8))] := by
  simp [bootBytesEvents, ht, take_succ_bootProgram hi]

/-! ### A turn of the block -/

/-- The safe-mode check: the halt if the button is held, else boot step 2 (R122). -/
theorem microStep_bootAt_safe :
    microStep (bootAt s .safe) = .next (bootAt s (if s.btnConfirm then .halted else .bus)) := by
  cases hb : s.btnConfirm with
  | true =>
    rw [microStep_b1Safe_held (s := bootAt s .safe) rfl hb]
    simp [bootAt, enterSafeHalt, safeModeDone, safeModeEvents, State.emit]
  | false =>
    rw [microStep_b1Safe (s := bootAt s .safe) rfl hb]
    simp [bootAt]

theorem microStep_bootAt_bus (h : s.BootReady) : microStep (bootAt s .bus) = .next (bootAt s .rstLo) := by
  rw [microStep_b2Bus rfl]
  cases ht : s.cfg.transport with
  | serial =>
    rw [initBus_serial (s := bootAt s .bus) ht]
    simp [bootAt, ht, h.spiBusy, State.goto]
  | batched =>
    rw [initBus_batched (s := bootAt s .bus) ht]
    simp [bootAt, ht, h.txOpen, h.txBusy, h.txBuf, State.goto]

theorem microStep_bootAt_cmd : microStep (bootAt s .cmd) = .next (bootAt s (.prog 0)) := by
  rw [microStep_b5Cmd rfl]
  cases ht : s.cfg.transport with
  | serial =>
    rw [State.enterMode_serial (bootAt s .cmd) .command ht]
    simp [bootAt, ht, bootDc, bootSpiDr, bootBytesEvents]
  | batched =>
    rw [State.enterMode_batched (bootAt s .cmd) .command ht]
    simp [bootAt, ht, bootDc, bootSpiDr, bootBytesEvents]

/-- With bytes left and none on its way, the next one is started (R127). -/
theorem microStep_bootAt_prog {i : Nat} (h : s.BootReady) (hi : i < s.cfg.bootLen) :
    microStep (bootAt s (.prog i)) = .next (bootAt s (.sending i)) := by
  cases ht : s.cfg.transport with
  | serial =>
    rw [microStep_b5Prog_serial (s := bootAt s (.prog i)) rfl ht rfl h.spiBusy (bootRom_of_lt hi)]
    simp [bootAt, ht, bootSpiDr_succ ht hi]
  | batched =>
    rw [microStep_b5Prog_batched (s := bootAt s (.prog i)) rfl ht rfl h.txOpen h.txBusy (h.cap ht) (bootRom_of_lt hi)]
    simp [bootAt, ht, bootSpiDr_batched _ ht, h.txOpen]

/-- A byte on its way is waited for (R127, R173). -/
theorem microStep_bootAt_sending (i : Nat) : microStep (bootAt s (.sending i)) = .next (bootAt s (.sending i)) := by
  refine microStep_b5Prog_busy (bootAt_seq _) ?_
  cases ht : s.cfg.transport <;> simp [bootAt, bootBusFree, ht]

theorem bootBusFree_prog (h : s.BootReady) (i : Nat) : bootBusFree (bootAt s (.prog i)) = true := by
  cases ht : s.cfg.transport <;> simp [bootAt, bootBusFree, ht, h.spiBusy, h.txBusy]

theorem microStep_bootAt_progEnd (h : s.BootReady) :
    microStep (bootAt s (.prog s.cfg.bootLen)) = .next (bootAt s .data) :=
  microStep_b5Prog_end rfl (bootBusFree_prog h _) (bootRom_bootLen s.cfg)

theorem microStep_bootAt_data : microStep (bootAt s .data) = .next (bootAt s .pwr) := by
  rw [microStep_b6Data rfl]
  cases ht : s.cfg.transport with
  | serial =>
    rw [State.enterMode_serial (bootAt s .data) .data ht]
    simp [bootAt, ht, bootDc, bootBytesEvents, bootProgEvents, Cfg.bootLen, State.goto]
  | batched =>
    rw [State.enterMode_batched (bootAt s .data) .data ht]
    simp [bootAt, ht, bootDc, bootBytesEvents, bootProgEvents, Cfg.bootLen, State.goto]

theorem microStep_bootAt_pwr : microStep (bootAt s .pwr) = .next (bootAt s .done) := by
  rw [microStep_b7Pwr rfl]
  cases ht : s.cfg.transport <;> simp [bootAt, bootDone, ht, bootDc, bootSpiDr, bootEvents, Cfg.bootLen]

theorem microStep_hSafe (hq : s.seq = .hSafe) : microStep s = .next s := by simp [microStep, micro, hq]

/-- A turn of the block takes BOOT to the next stage. -/
theorem microStep_bootAt (h : s.BootReady) {st : BootStage} (hst : st.Reachable s.cfg s.btnConfirm) :
    microStep (bootAt s st) = .next (bootAt s (st.next s.cfg s.btnConfirm)) := by
  cases st with
  | pins => exact microStep_b1Pins rfl
  | safe => exact microStep_bootAt_safe
  | bus => exact microStep_bootAt_bus h
  | rstLo => rw [microStep_b3RstLo rfl]; simp [bootAt]
  | hold => rw [microStep_b3Hold rfl]; simp [bootAt]
  | rstHi => rw [microStep_b3RstHi rfl]; simp [bootAt]
  | settle => rw [microStep_b3Settle rfl]; simp [bootAt]
  | cs => rw [microStep_b4Cs rfl]; simp [bootAt]
  | cmd => exact microStep_bootAt_cmd
  | prog i =>
    obtain ⟨-, hi⟩ := hst
    obtain hlt | rfl := Nat.lt_or_eq_of_le hi
    · rw [microStep_bootAt_prog h hlt, BootStage.next, if_pos hlt]
    · rw [microStep_bootAt_progEnd h, BootStage.next, if_neg (Nat.lt_irrefl _)]
  | sending i => exact microStep_bootAt_sending i
  | data => exact microStep_bootAt_data
  | pwr => exact microStep_bootAt_pwr
  | done => exact microStep_ready rfl
  | halted => exact microStep_hSafe rfl

/-! ### The other quiet moves -/

/-- SerialDone delivers the byte on its way on SERIAL; else there is none. -/
theorem serialDone_bootAt (h : s.BootReady) {st : BootStage} (hst : st.Reachable s.cfg s.btnConfirm) :
    serialDone (bootAt s st) = bootAt s (st.after s.cfg s.btnConfirm .serialDone) := by
  cases ht : s.cfg.transport <;> simp only [BootStage.after, ht]
  case batched =>
    refine if_neg (ne_true_of_eq_false ?_)
    cases st with
    | sending i => simpa [bootAt, ht] using h.spiBusy
    | _ => exact h.spiBusy
  case serial =>
    cases st with
    | sending i =>
      obtain ⟨-, hi⟩ := hst
      simp [bootAt, serialDone, ht, h.spiBusy, bootSpiDr_succ ht hi, bootBytesEvents_succ_serial ht hi]
    | _ => exact if_neg (ne_true_of_eq_false h.spiBusy)

/-- BatchDone delivers the batch on its way on BATCHED; else there is none. -/
theorem batchDone_bootAt (h : s.BootReady) {st : BootStage} (hst : st.Reachable s.cfg s.btnConfirm) :
    batchDone (bootAt s st) = bootAt s (st.after s.cfg s.btnConfirm .batchDone) := by
  cases ht : s.cfg.transport <;> simp only [BootStage.after, ht]
  case serial =>
    refine if_neg (ne_true_of_eq_false ?_)
    cases st with
    | sending i => simpa [bootAt, ht] using h.txBusy
    | _ => exact h.txBusy
  case batched =>
    cases st with
    | sending i =>
      obtain ⟨-, hi⟩ := hst
      simp [bootAt, batchDone, ht, h.txBusy, h.txBuf, bootBytesEvents_succ_batched ht hi]
    | _ => exact if_neg (ne_true_of_eq_false h.txBusy)

/-- No interrupt wakes a block that is not asleep. -/
theorem wake_bootAt (st : BootStage) : wake (bootAt s st) = bootAt s st := by
  refine if_neg fun ⟨hsleep, _⟩ => ?_
  rw [bootAt_seq] at hsleep
  cases st <;> cases hsleep

/-- Every quiet move takes BOOT from its stage to the next stage of `BootStage.after`, and does nothing else. -/
theorem takeMove_bootAt (h : s.BootReady) {st : BootStage} (hst : st.Reachable s.cfg s.btnConfirm) {m : Move}
    (hm : m.quiet = true) :
    takeMove exec m (bootAt s st) = .next (bootAt s (st.after s.cfg s.btnConfirm m)) := by
  cases m with
  | block => exact microStep_bootAt h hst
  | serialDone => exact congrArg _ (serialDone_bootAt h hst)
  | batchDone => exact congrArg _ (batchDone_bootAt h hst)
  | irq => exact congrArg _ (wake_bootAt st)
  | present | fbWrite | fbSupply | button | platform | foreignDrive | reset => cases hm

/-- The moves `ms`, all of them quiet, lead BOOT from stage to stage. -/
theorem plays_bootAt (h : s.BootReady) {ms : List Move} (hms : ∀ m ∈ ms, m.quiet = true) {st : BootStage}
    (hst : st.Reachable s.cfg s.btnConfirm) :
    Plays ms (bootAt s st) (bootAt s (ms.foldl (·.after s.cfg s.btnConfirm) st)) := by
  induction ms generalizing st with
  | nil => exact Plays.nil _
  | cons m ms ih =>
    obtain ⟨hm, hms⟩ := List.forall_mem_cons.mp hms
    refine Plays.append (ms := [m]) (plays_move fun rest => ?_) (ih hms (hst.after m))
    rw [bootAt_withSched, bootAt_withSched]
    exact takeMove_bootAt (h.withSched rest) hst hm

end Stages

end Sys2Proof.Machine
end

section
/-! PROOF. BOOT ends as R130 and R131 say, under every quiet schedule and on a prompt bus. -/

namespace Sys2Proof.Machine

/-! ### Under every quiet schedule -/

/-- `u` is a stage of the BOOT accepted in `s`, with quiet moves still to come. -/
def DuringBoot (s u : State) : Prop :=
  ∃ st r, r.all Move.quiet = true ∧ BootStage.Reachable s.cfg s.btnConfirm st ∧ u = bootAt { s with sched := r } st

section Schedules

variable {s : State}

theorem bootAt_sched (st : BootStage) : (bootAt s st).sched = s.sched := by
  cases st with
  | sending i => cases ht : s.cfg.transport <;> simp [bootAt, ht]
  | _ => rfl

theorem duringBoot_step (h : s.BootReady) {u v : State} (hu : DuringBoot s u) (hstep : step u = .next v) :
    DuringBoot s v := by
  obtain ⟨st, r, hr, hst, rfl⟩ := hu
  cases r with
  | nil =>
    rw [step_nil (bootAt_sched st), microStep_bootAt (h.withSched []) hst] at hstep
    cases hstep
    exact ⟨_, [], hr, hst.next, rfl⟩
  | cons m rest =>
    obtain ⟨hm, hrest⟩ : m.quiet = true ∧ rest.all Move.quiet = true := by simpa using hr
    rw [step_cons (bootAt_sched st), bootAt_withSched, takeMove_bootAt (h.withSched rest) hst hm] at hstep
    cases hstep
    exact ⟨_, rest, hrest, hst.after m, rfl⟩

/-- A run of quiet moves after the acceptance of BOOT is at one of its stages. -/
theorem duringBoot_run (hinv : s.inv = true) (hcalm : s.calm = true) (hq : s.seq = .wBoot) {k : Nat} {s' t : State}
    (hexec : exec .boot s = .next s') (hrun : run k s' = .next t) : DuringBoot s t := by
  obtain rfl : s' = s.goto .b1Pins := exec_next hexec
  exact run_keeps (duringBoot_step (State.bootReady_of_inv hinv hq)) ⟨.pins, s.sched, hcalm, trivial, rfl⟩ hrun

end Schedules

theorem BootStage.eq_done {st : BootStage} (h : st.seq = .ready) : st = .done := by
  cases st with
  | done => rfl
  | _ => cases h

theorem BootStage.eq_halted {st : BootStage} (h : st.seq = .hSafe) : st = .halted := by
  cases st with
  | halted => rfl
  | _ => cases h

/-- Settles O14: of the stages of BOOT only the last is in READY, and its state is that of R131. -/
theorem bootEndStateUnderEverySchedule : Obligations.BootEndStateUnderEverySchedule := by
  unfold Obligations.BootEndStateUnderEverySchedule
  intro s s' t k hinv hcalm hq hexec hrun hready
  obtain ⟨st, r, -, -, rfl⟩ := duringBoot_run hinv hcalm hq hexec hrun
  rw [bootAt_seq] at hready
  obtain rfl := BootStage.eq_done hready
  rfl

/-- With the button held BOOT goes no further than its safe-mode check (R122). -/
theorem BootStage.seq_of_held {g : Cfg} {st : BootStage} (h : st.Reachable g true) :
    st.seq = .b1Pins ∨ st.seq = .b1Safe ∨ st.seq = .hSafe := by
  cases st with
  | pins => exact .inl rfl
  | safe => exact .inr (.inl rfl)
  | halted => exact .inr (.inr rfl)
  | prog | sending =>
    obtain ⟨hheld, -⟩ := h
    cases hheld
  | _ => cases h

/-- Settles O15: the halt is a stage of BOOT with the button held only, and there the stages before it are the only
others. -/
theorem safeModeEndState : Obligations.SafeModeEndState := by
  unfold Obligations.SafeModeEndState
  intro s s' t k hinv hcalm hq hexec hrun
  obtain ⟨st, r, -, hst, rfl⟩ := duringBoot_run hinv hcalm hq hexec hrun
  rw [bootAt_seq]
  refine ⟨fun hhalt => ?_, fun hheld => ?_⟩
  · obtain rfl := BootStage.eq_halted hhalt
    exact ⟨hst, rfl⟩
  · rw [hheld] at hst
    exact BootStage.seq_of_held hst

/-! ### On a bus that never stalls -/

/-- The stage after `n` prompt turns: what the block starts in a turn is delivered at once. -/
def BootStage.afterPrompt (g : Cfg) (n : Nat) (st : BootStage) : BootStage :=
  match n with
  | 0 => st
  | n + 1 => BootStage.afterPrompt g n (st.next g false).delivered

theorem foldl_after_promptTurns (g : Cfg) (n : Nat) (st : BootStage) :
    (promptTurns n).foldl (·.after g false) st = st.afterPrompt g n := by
  induction n generalizing st with
  | zero => rfl
  | succ n ih =>
    rw [BootStage.afterPrompt, ← ih]
    cases ht : g.transport <;> simp only [promptTurns, List.foldl_cons, BootStage.after, ht]

/-- One prompt turn for each byte of the boot program that is left, and three after it (R127 to R129). -/
theorem afterPrompt_prog {g : Cfg} {i n : Nat} (hleft : i + n = g.bootLen) :
    BootStage.afterPrompt g (n + 3) (.prog i) = .done := by
  induction n generalizing i with
  | zero =>
    have hlast : (BootStage.prog i).next g false = .data := if_neg (by omega)
    rw [BootStage.afterPrompt, hlast]
    rfl
  | succ n ih =>
    have hstart : (BootStage.prog i).next g false = .sending i := if_pos (by omega)
    calc BootStage.afterPrompt g (n + 1 + 3) (.prog i)
      _ = BootStage.afterPrompt g (n + 3) ((BootStage.prog i).next g false).delivered := rfl
      _ = BootStage.afterPrompt g (n + 3) (.prog (i + 1)) := by rw [hstart, BootStage.delivered]
      _ = .done := ih (by omega)

/-- Nine turns before the boot program, one for each of its bytes, three after it (R121 to R129). -/
theorem afterPrompt_boot (g : Cfg) : BootStage.afterPrompt g (g.bootLen + 12) .pins = .done :=
  calc BootStage.afterPrompt g (g.bootLen + 12) .pins
    _ = BootStage.afterPrompt g (g.bootLen + 3) (.prog 0) := rfl
    _ = .done := afterPrompt_prog (Nat.zero_add _)

theorem promptTurns_quiet (n : Nat) : ∀ m ∈ promptTurns n, m.quiet = true := by
  induction n with
  | zero => simp [promptTurns]
  | succ n ih => simpa [promptTurns, Move.quiet] using ih

theorem promptTurns_length (n : Nat) : (promptTurns n).length = 3 * n := by
  induction n with
  | zero => rfl
  | succ n ih => simp [promptTurns, ih]; omega

/-- On a bus that never stalls, with the button not held, BOOT completes in `L + 12` turns of the block. -/
theorem plays_boot {s : State} (h : s.BootReady) (hfree : s.btnConfirm = false) :
    Plays (promptTurns (turnsNeeded s.cfg .boot)) (s.goto .b1Pins) (bootDone s s.sched) := by
  have hplays := plays_bootAt h (promptTurns_quiet (s.cfg.bootLen + 12)) (st := .pins) trivial
  rwa [hfree, foldl_after_promptTurns, afterPrompt_boot] at hplays

/-- Settles O16: the accepted BOOT plays the prompt turns. -/
theorem bootCompletesOnAPromptBus : Obligations.BootCompletesOnAPromptBus := by
  unfold Obligations.BootCompletesOnAPromptBus
  intro s rest hinv hq hfree
  have hplays := plays_boot (State.bootReady_of_inv hinv hq) hfree rest
  rw [promptTurns_length] at hplays
  exact ⟨_, _, execBoot_wBoot hq, hplays, rfl, rfl⟩

end Sys2Proof.Machine
end

section
/-! SUPPORT. Operations whose life is a walk through stages: under quiet moves the machine goes from stage to stage and
does nothing else, so a run of a calm schedule ends at a stage, and a given stretch of moves leads to a given one. -/

namespace Sys2Proof.Machine

/-- Every quiet move takes the machine from the state at a stage that satisfies `Inv` to the state at the stage `after`
it, which satisfies `Inv` too; the schedule of the states does not count. -/
def QuietStages {σ : Type} (state : σ → State) (Inv : σ → Prop) (after : σ → Move → σ) : Prop :=
  ∀ st m rest, Inv st → m.quiet = true → Inv (after st m) ∧
    takeMove exec m { state st with sched := rest } = .next { state (after st m) with sched := rest }

/-- `u` is the state at a stage that satisfies `Inv`, with quiet moves still to come. -/
def AtStage {σ : Type} (state : σ → State) (Inv : σ → Prop) (u : State) : Prop :=
  u.calm = true ∧ ∃ st, Inv st ∧ u = { state st with sched := u.sched }

section Stages

variable {σ : Type} {state : σ → State} {Inv : σ → Prop} {after : σ → Move → σ}

theorem QuietStages.step (h : QuietStages state Inv after) {u v : State} (hu : AtStage state Inv u)
    (hstep : step u = .next v) : AtStage state Inv v := by
  obtain ⟨hcalm, st, hst, hat⟩ := hu
  obtain ⟨m, r, hm, hr, htake⟩ : ∃ m r, m.quiet = true ∧ r.all Move.quiet = true ∧
      takeMove exec m { state st with sched := r } = .next v := by
    obtain ⟨hnil, hblock⟩ | ⟨m, rest, hcons, htake⟩ := step_cases hstep
    · refine ⟨.block, [], rfl, rfl, ?_⟩
      rw [← hnil, ← hat]
      exact hblock
    · have hquiet : m.quiet = true ∧ rest.all Move.quiet = true := by simpa [State.calm, hcons] using hcalm
      obtain ⟨hm, hrest⟩ := hquiet
      rw [hat] at htake
      exact ⟨m, rest, hm, hrest, htake⟩
  obtain ⟨hafter, hnext⟩ := h st m r hst hm
  obtain rfl : { state (after st m) with sched := r } = v := by simpa [hnext] using htake
  exact ⟨hr, _, hafter, rfl⟩

/-- A run of a calm schedule ends at a stage. -/
theorem QuietStages.run (h : QuietStages state Inv after) {st : σ} (hst : Inv st) {r : List Move}
    (hr : r.all Move.quiet = true) {k : Nat} {t : State} (hrun : run k { state st with sched := r } = .next t) :
    AtStage state Inv t :=
  have hstart : AtStage state Inv { state st with sched := r } := ⟨hr, st, hst, rfl⟩
  run_keeps h.step hstart hrun

/-- The quiet moves `ms` lead from stage to stage. -/
theorem QuietStages.plays (h : QuietStages state Inv after) {ms : List Move} (hms : ∀ m ∈ ms, m.quiet = true) {st : σ}
    (hst : Inv st) : Plays ms (state st) (state (ms.foldl after st)) := by
  induction ms generalizing st with
  | nil => exact Plays.nil _
  | cons m ms ih =>
    obtain ⟨hm, hms⟩ := List.forall_mem_cons.mp hms
    obtain ⟨hafter, -⟩ := h st m [] hst hm
    refine Plays.append (ms := [m]) (plays_move fun rest => ?_) (ih hms hafter)
    obtain ⟨-, hnext⟩ := h st m rest hst hm
    exact hnext

end Stages

theorem wake_of_seq_ne {s : State} (h : s.seq ≠ .iSleep) : wake s = s := if_neg fun ⟨hsleep, _⟩ => h hsleep

theorem serialDone_idle {s : State} (h : s.spiBusy = false) : serialDone s = s := if_neg (ne_true_of_eq_false h)

theorem batchDone_idle {s : State} (h : s.txBusy = false) : batchDone s = s := if_neg (ne_true_of_eq_false h)

theorem promptTurns_add (m n : Nat) : promptTurns (m + n) = promptTurns m ++ promptTurns n := by
  induction m with
  | zero => rw [Nat.zero_add, promptTurns, List.nil_append]
  | succ m ih => rw [Nat.succ_add, promptTurns, promptTurns, ih]; rfl

end Sys2Proof.Machine
end

section
/-! PROOF. Acceptance of PAINT (R140), and the state it is accepted in. -/

namespace Sys2Proof.Machine

/-- An accepted PAINT, on either transport (R140). -/
theorem exec_paint {s : State} (clear : Bool) (hq : s.seq = .ready) (hlen : s.cfg.frameLen ≤ s.fbLen) :
    exec (.paint clear) s = .next (acceptState (.paint clear) s) := by
  rw [exec, execPaint, acceptReady_ready hq, if_neg (Nat.not_lt.mpr hlen), acceptState]

/-- Settles O26: PAINT has one word for each value of its flag, and is accepted at the first micro-state of its
transport. -/
theorem paintStarts : Obligations.PaintStarts := by
  unfold Obligations.PaintStarts
  refine ⟨fun b => ?word, fun s b hq hlen hs => ?serial, fun s b hq hlen hs => ?batched⟩
  case word => cases b <;> rfl
  case serial | batched => rw [exec_paint b hq hlen, acceptState, hs, paintStart]

/-- READY with the bus ready and idle, and a whole frame in FB (R34, R35, R72). -/
structure State.PaintReady (s : State) : Prop extends State.CommandReady s where
  pos : 1 ≤ s.cfg.frameLen
  len : s.cfg.frameLen ≤ s.fbLen

theorem State.paintReady_of_inv {s : State} (hinv : s.inv = true) (hq : s.seq = .ready)
    (hlen : s.cfg.frameLen ≤ s.fbLen) : s.PaintReady := by
  obtain ⟨hwf, -⟩ := State.inv_iff.mp hinv
  exact { State.commandReady_of_inv hinv hq with pos := cfg_frameLen_pos hwf, len := hlen }

theorem State.PaintReady.withSched {s : State} (h : s.PaintReady) (r : List Move) : { s with sched := r }.PaintReady :=
  { h.toCommandReady.withSched r with pos := h.pos, len := h.len }

/-- A PAINT that is accepted finds a whole frame in FB (R72). -/
theorem frameLen_le_of_exec_paint {s s' : State} {clear : Bool} (h : exec (.paint clear) s = .next s') :
    s.cfg.frameLen ≤ s.fbLen := by
  obtain ⟨hq, -⟩ := acceptReady_eq_next.mp h
  refine Nat.le_of_not_lt fun hlt => ?_
  have hshort : exec (.paint clear) s = .refused .fbTooShort := execPaint_short hq hlt
  rw [hshort] at h
  cases h

end Sys2Proof.Machine
end

section
/-! PROOF. The life of a SERIAL PAINT from its acceptance to READY under every quiet schedule (R143): byte `i + 1` is
read before or after byte `i` is delivered, as the schedule has it, and no quiet move does anything else (R66). -/

namespace Sys2Proof.Machine

/-! ### The micro-steps P_* -/

theorem microStep_of_micro {s t : State} (h : micro s = .go t) : microStep s = .next t := by
  rw [microStep, h, Micro.turn_go]

theorem microStep_pFetch {s : State} (hq : s.seq = .pFetch) (hn : s.ftIdx < s.cfg.frameLen) (hl : s.ftIdx < s.fbLen) :
    microStep s = .next { s with
      lat := frameByte s.clr s.fb s.ftIdx, trace := s.trace ++ frameRead s.clr s.fb s.ftIdx, seq := .pSend } :=
  microStep_of_micro ((micro_of_pFetch hq).trans (microPFetch_eq hn hl))

theorem microStep_pSend {s : State} (hq : s.seq = .pSend) (hready : s.busReady = true) (hidle : s.spiBusy = false) :
    microStep s = .next { s with
      spiDr := s.lat, spiBusy := true, ftIdx := s.ftIdx + 1
      seq := if s.ftIdx + 1 < s.cfg.frameLen then .pFetch else .pDrain } :=
  microStep_of_micro ((micro_of_pSend hq).trans (microPSend_eq hready hidle))

theorem microStep_pSend_busy {s : State} (hq : s.seq = .pSend) (hbusy : s.spiBusy = true) : microStep s = .next s := by
  simp [microStep, micro_of_pSend hq, microPSend, hbusy]

theorem microStep_pDrain {s : State} (hq : s.seq = .pDrain) (hidle : s.spiBusy = false) :
    microStep s = .next (finishPaint s) :=
  microStep_of_micro ((micro_of_pDrain hq).trans (microPDrain_eq hidle))

theorem microStep_pDrain_busy {s : State} (hq : s.seq = .pDrain) (hbusy : s.spiBusy = true) :
    microStep s = .next s := by
  simp [microStep, micro_of_pDrain hq, microPDrain, hbusy]

/-! ### The events, slot by slot -/

/-- The choice of overlaps with that of slot `i` made: it is taken or not (R66). -/
def chooseSlot (early : Nat → Bool) (i : Nat) (b : Bool) : Nat → Bool := fun j => if j = i then b else early j

@[simp] theorem chooseSlot_same (early : Nat → Bool) (i : Nat) (b : Bool) : chooseSlot early i b i = b := if_pos rfl

theorem chooseSlot_other {j i : Nat} (early : Nat → Bool) (b : Bool) (h : j ≠ i) : chooseSlot early i b j = early j :=
  if_neg h

/-- The events of a SERIAL PAINT up to slot `i`: byte 0 read, and the first `i` slots. -/
def slotEvents (clear : Bool) (fb : Memory) (n : Nat) (early : Nat → Bool) (i : Nat) : List Event :=
  frameRead clear fb 0 ++ (List.range i).flatMap (serialSlot clear fb n early)

section Slots

variable {clear : Bool} {fb : Memory} {n : Nat} {early : Nat → Bool} {i : Nat}

theorem slotEvents_zero : slotEvents clear fb n early 0 = frameRead clear fb 0 := List.append_nil _

theorem slotEvents_succ :
    slotEvents clear fb n early (i + 1) = slotEvents clear fb n early i ++ serialSlot clear fb n early i := by
  simp [slotEvents, List.range_succ]

/-- The choice of a slot says nothing of the slots before it. -/
theorem slotEvents_chooseSlot {m : Nat} (b : Bool) (hm : m ≤ i) :
    slotEvents clear fb n (chooseSlot early i b) m = slotEvents clear fb n early m := by
  induction m with
  | zero => rfl
  | succ m ih =>
    have hslot : serialSlot clear fb n (chooseSlot early i b) m = serialSlot clear fb n early m := by
      simp only [serialSlot, chooseSlot_other early b (Nat.ne_of_lt hm)]
    rw [slotEvents_succ, slotEvents_succ, ih (Nat.le_of_succ_le hm), hslot]

/-- A slot in which the overlap is taken (R66). -/
theorem slotEvents_early (hi : i + 1 < n) :
    slotEvents clear fb n (chooseSlot early i true) (i + 1) =
      slotEvents clear fb n early i ++ frameRead clear fb (i + 1) ++ [.serial (frameByte clear fb i)] := by
  rw [slotEvents_succ, slotEvents_chooseSlot _ (Nat.le_refl i)]
  simp [serialSlot, hi]

/-- A slot in which it is not. -/
theorem slotEvents_late (hi : i + 1 < n) :
    slotEvents clear fb n (chooseSlot early i false) (i + 1) =
      slotEvents clear fb n early i ++ [.serial (frameByte clear fb i)] ++ frameRead clear fb (i + 1) := by
  rw [slotEvents_succ, slotEvents_chooseSlot _ (Nat.le_refl i)]
  simp [serialSlot, hi]

/-- The last slot has no byte to read. -/
theorem slotEvents_last (hi : i + 1 = n) :
    slotEvents clear fb n early n = slotEvents clear fb n early i ++ [.serial (frameByte clear fb i)] := by
  subst hi
  rw [slotEvents_succ]
  simp [serialSlot]

end Slots

/-! ### The stages -/

/-- How far a SERIAL PAINT is: accepted; byte `i` read, nothing on its way; byte `i` on its way; byte `i` on its way and
byte `i + 1` read, the overlap of R66; byte `i` delivered, the next one not read; completed. -/
inductive SerialStage where
  | accepted
  | loaded (i : Nat)
  | sending (i : Nat)
  | overlapped (i : Nat)
  | sent (i : Nat)
  | done

/-- A stage, with the overlaps taken up to it. -/
structure SerialProgress where
  stage : SerialStage
  early : Nat → Bool

/-- What follows a turn of the block, in a PAINT of `n` bytes: the overlap is taken if byte `i + 1` is read with byte
`i` on its way, and a byte is waited for where there is no other to read. -/
def SerialProgress.next (n : Nat) (p : SerialProgress) : SerialProgress :=
  match p.stage with
  | .accepted => ⟨.loaded 0, p.early⟩
  | .loaded i => ⟨.sending i, p.early⟩
  | .sending i => ⟨if i + 1 < n then .overlapped i else .sending i, p.early⟩
  | .overlapped i => ⟨.overlapped i, p.early⟩
  | .sent i => ⟨if i + 1 < n then .loaded (i + 1) else .done, chooseSlot p.early i false⟩
  | .done => ⟨.done, p.early⟩

/-- What follows the delivery of the byte on its way, if there is one. -/
def SerialProgress.delivered (p : SerialProgress) : SerialProgress :=
  match p.stage with
  | .sending i => ⟨.sent i, p.early⟩
  | .overlapped i => ⟨.loaded (i + 1), chooseSlot p.early i true⟩
  | st => ⟨st, p.early⟩

/-- What follows a quiet move. -/
def SerialProgress.after (n : Nat) (p : SerialProgress) (m : Move) : SerialProgress :=
  match m with
  | .block => p.next n
  | .serialDone => p.delivered
  | _ => p

/-- The bytes of a frame are those below `N`, and the overlap is one of two bytes (R66). -/
def SerialProgress.Reachable (n : Nat) (p : SerialProgress) : Prop :=
  match p.stage with
  | .accepted | .done => True
  | .loaded i | .sending i | .sent i => i < n
  | .overlapped i => i + 1 < n

theorem SerialProgress.Reachable.next {n : Nat} (hn : 1 ≤ n) {p : SerialProgress} (h : p.Reachable n) :
    (p.next n).Reachable n := by
  obtain ⟨st, early⟩ := p
  cases st with
  | accepted => exact hn
  | sending i =>
    by_cases hi : i + 1 < n
    · simp [SerialProgress.next, SerialProgress.Reachable, hi]
    · simpa [SerialProgress.next, SerialProgress.Reachable, hi] using h
  | sent i => by_cases hi : i + 1 < n <;> simp [SerialProgress.next, SerialProgress.Reachable, hi]
  | loaded | overlapped | done => exact h

theorem SerialProgress.Reachable.delivered {n : Nat} {p : SerialProgress} (h : p.Reachable n) :
    p.delivered.Reachable n := by
  obtain ⟨st, early⟩ := p
  cases st <;> exact h

theorem SerialProgress.Reachable.after {n : Nat} (hn : 1 ≤ n) {p : SerialProgress} (h : p.Reachable n) (m : Move) :
    (p.after n m).Reachable n := by
  unfold SerialProgress.after
  split
  · exact h.next hn
  · exact h.delivered
  · exact h

/-! ### The state at a stage -/

/-- The micro-state once byte `i` of `n` is started (R143). -/
def serialNext (n i : Nat) : MicroState := if i + 1 < n then .pFetch else .pDrain

/-- The micro-state of a stage (R31). -/
def SerialStage.seq (n : Nat) : SerialStage → MicroState
  | .accepted => .pFetch
  | .loaded _ | .overlapped _ => .pSend
  | .sending i | .sent i => serialNext n i
  | .done => .ready

/-- The events up to a stage (R146). -/
def SerialProgress.events (clear : Bool) (fb : Memory) (n : Nat) (p : SerialProgress) : List Event :=
  match p.stage with
  | .accepted => []
  | .loaded i | .sending i => slotEvents clear fb n p.early i
  | .overlapped i => slotEvents clear fb n p.early i ++ frameRead clear fb (i + 1)
  | .sent i => slotEvents clear fb n p.early i ++ [.serial (frameByte clear fb i)]
  | .done => serialFrameEvents clear fb n p.early

/-- The data register with `n` bytes of the frame started. -/
def frameSpiDr (s : State) (clear : Bool) : Nat → Byte
  | 0 => s.spiDr
  | i + 1 => frameByte clear s.fb i

/-- A SERIAL PAINT of `s` at a stage, with the given number of bytes started and the byte of the given index in the
latch. -/
@[simp] def inSerialPaint (s : State) (clear : Bool) (p : SerialProgress) (started latched : Nat) : State :=
  { s with
    seq := p.stage.seq s.cfg.frameLen
    clr := clear
    ftIdx := started
    lat := frameByte clear s.fb latched
    spiDr := frameSpiDr s clear started
    trace := s.trace ++ p.events clear s.fb s.cfg.frameLen }

/-- The state of a SERIAL PAINT accepted in `s`, at a stage. -/
def serialAt (s : State) (clear : Bool) (p : SerialProgress) : State :=
  match p.stage with
  | .accepted => { s with clr := clear, ftIdx := 0, seq := .pFetch }
  | .loaded i => inSerialPaint s clear p i i
  | .sending i => { inSerialPaint s clear p (i + 1) i with spiBusy := true }
  | .overlapped i => { inSerialPaint s clear p (i + 1) (i + 1) with spiBusy := true }
  | .sent i => inSerialPaint s clear p (i + 1) i
  | .done => serialPaintDone s clear p.early s.sched

section Stages

variable {s : State} {clear : Bool} {early : Nat → Bool}

theorem serialAt_withSched (p : SerialProgress) (r : List Move) :
    { serialAt s clear p with sched := r } = serialAt { s with sched := r } clear p := by
  obtain ⟨st, early⟩ := p
  cases st <;> rfl

theorem serialAt_seq (hq : s.seq = .ready) (p : SerialProgress) :
    (serialAt s clear p).seq = p.stage.seq s.cfg.frameLen := by
  obtain ⟨st, early⟩ := p
  cases st with
  | done => exact hq
  | accepted | loaded | sending | overlapped | sent => rfl

theorem SerialStage.seq_ne_iSleep (n : Nat) (st : SerialStage) : st.seq n ≠ .iSleep := by
  cases st with
  | sending i | sent i => by_cases hi : i + 1 < n <;> simp [SerialStage.seq, serialNext, hi]
  | accepted | loaded | overlapped | done => simp [SerialStage.seq]

theorem serialNext_of_lt {n i : Nat} (hi : i + 1 < n) : serialNext n i = .pFetch := if_pos hi

theorem serialNext_of_last {n i : Nat} (hi : ¬i + 1 < n) : serialNext n i = .pDrain := if_neg hi

/-! ### One quiet move -/

theorem microStep_serialAt_accepted (h : s.PaintReady) :
    microStep (serialAt s clear ⟨.accepted, early⟩) = .next (serialAt s clear ⟨.loaded 0, early⟩) := by
  have hl := Nat.lt_of_lt_of_le h.pos h.len
  rw [microStep_pFetch (s := serialAt s clear ⟨.accepted, early⟩) rfl h.pos hl]
  simp [serialAt, SerialProgress.events, slotEvents_zero, frameSpiDr, SerialStage.seq]

theorem microStep_serialAt_loaded (h : s.PaintReady) (i : Nat) :
    microStep (serialAt s clear ⟨.loaded i, early⟩) = .next (serialAt s clear ⟨.sending i, early⟩) := by
  rw [microStep_pSend (s := serialAt s clear ⟨.loaded i, early⟩) rfl h.busReady h.spiBusy]
  rfl

/-- With byte `i` on its way the block reads byte `i + 1`, if there is one (R66), and waits if there is none (R143). -/
theorem microStep_serialAt_sending (h : s.PaintReady) (i : Nat) :
    microStep (serialAt s clear ⟨.sending i, early⟩) =
      .next (serialAt s clear ((SerialProgress.mk (.sending i) early).next s.cfg.frameLen)) := by
  by_cases hi : i + 1 < s.cfg.frameLen
  · rw [microStep_pFetch (s := serialAt s clear ⟨.sending i, early⟩) (serialNext_of_lt hi) hi
      (Nat.lt_of_lt_of_le hi h.len)]
    simp [serialAt, SerialProgress.next, SerialProgress.events, frameSpiDr, SerialStage.seq, hi]
  · rw [microStep_pDrain_busy (s := serialAt s clear ⟨.sending i, early⟩) (serialNext_of_last hi) rfl]
    simp [SerialProgress.next, hi]

/-- The last byte delivered, the PAINT completes in the state of R147. -/
theorem finishPaint_serialAt (hq : s.seq = .ready) {i : Nat} (hi : i + 1 = s.cfg.frameLen) :
    finishPaint (serialAt s clear ⟨.sent i, early⟩) = serialAt s clear ⟨.done, chooseSlot early i false⟩ := by
  have hpred : s.cfg.frameLen - 1 = i := by omega
  have hevents : serialFrameEvents clear s.fb s.cfg.frameLen (chooseSlot early i false) =
      slotEvents clear s.fb s.cfg.frameLen early i ++ [.serial (frameByte clear s.fb i)] := by
    rw [← slotEvents_chooseSlot (early := early) false (Nat.le_refl i)]
    exact slotEvents_last hi
  simp only [serialAt, inSerialPaint, SerialProgress.events, frameSpiDr, finishPaint, serialPaintDone, hi, hpred,
    hevents, hq]
  rfl

/-- With byte `i` delivered the block reads byte `i + 1`, if there is one, and completes the PAINT if there is none, in
the state of R147. -/
theorem microStep_serialAt_sent (h : s.PaintReady) {i : Nat} (hlt : i < s.cfg.frameLen) :
    microStep (serialAt s clear ⟨.sent i, early⟩) =
      .next (serialAt s clear ((SerialProgress.mk (.sent i) early).next s.cfg.frameLen)) := by
  by_cases hi : i + 1 < s.cfg.frameLen
  · rw [microStep_pFetch (s := serialAt s clear ⟨.sent i, early⟩) (serialNext_of_lt hi) hi
      (Nat.lt_of_lt_of_le hi h.len)]
    simp [serialAt, SerialProgress.next, SerialProgress.events, frameSpiDr, SerialStage.seq, hi, slotEvents_late]
  · have hlast : i + 1 = s.cfg.frameLen := Nat.le_antisymm hlt (Nat.le_of_not_lt hi)
    rw [microStep_pDrain (s := serialAt s clear ⟨.sent i, early⟩) (serialNext_of_last hi) h.spiBusy,
      finishPaint_serialAt h.seq hlast]
    simp [SerialProgress.next, hi]

/-- A turn of the block takes a SERIAL PAINT to the next stage. -/
theorem microStep_serialAt (h : s.PaintReady) {p : SerialProgress} (hp : p.Reachable s.cfg.frameLen) :
    microStep (serialAt s clear p) = .next (serialAt s clear (p.next s.cfg.frameLen)) := by
  obtain ⟨st, early⟩ := p
  cases st with
  | accepted => exact microStep_serialAt_accepted h
  | loaded i => exact microStep_serialAt_loaded h i
  | sending i => exact microStep_serialAt_sending h i
  | overlapped i => exact microStep_pSend_busy rfl rfl
  | sent i => exact microStep_serialAt_sent h hp
  | done => exact microStep_ready h.seq

/-- SerialDone delivers the byte on its way; else there is none. -/
theorem serialDone_serialAt (h : s.PaintReady) {p : SerialProgress} (hp : p.Reachable s.cfg.frameLen) :
    serialDone (serialAt s clear p) = serialAt s clear p.delivered := by
  obtain ⟨st, early⟩ := p
  cases st with
  | sending i =>
    simp [serialDone, serialAt, SerialProgress.delivered, SerialProgress.events, SerialStage.seq, frameSpiDr, h.spiBusy]
  | overlapped i =>
    simp [serialDone, serialAt, SerialProgress.delivered, SerialProgress.events, SerialStage.seq, frameSpiDr, h.spiBusy,
      slotEvents_early hp]
  | accepted | loaded | sent | done => exact serialDone_idle h.spiBusy

/-- No batch is on its way on SERIAL. -/
theorem batchDone_serialAt (h : s.PaintReady) (p : SerialProgress) :
    batchDone (serialAt s clear p) = serialAt s clear p := by
  obtain ⟨st, early⟩ := p
  cases st <;> exact batchDone_idle h.txBusy

theorem takeMove_serialAt (h : s.PaintReady) {p : SerialProgress} (hp : p.Reachable s.cfg.frameLen) {m : Move}
    (hm : m.quiet = true) :
    takeMove exec m (serialAt s clear p) = .next (serialAt s clear (p.after s.cfg.frameLen m)) := by
  cases m with
  | block => exact microStep_serialAt h hp
  | serialDone => exact congrArg _ (serialDone_serialAt h hp)
  | batchDone => exact congrArg _ (batchDone_serialAt h p)
  | irq => exact congrArg _ (wake_of_seq_ne (serialAt_seq h.seq p ▸ SerialStage.seq_ne_iSleep _ _))
  | present | fbWrite | fbSupply | button | platform | foreignDrive | reset => cases hm

/-- Every quiet move takes a SERIAL PAINT from its stage to the one of `SerialProgress.after`, and does nothing else. -/
theorem quietStages_serialAt (h : s.PaintReady) (clear : Bool) :
    QuietStages (serialAt s clear) (SerialProgress.Reachable s.cfg.frameLen)
      (SerialProgress.after s.cfg.frameLen) := by
  intro p m rest hp hm
  refine ⟨hp.after h.pos m, ?_⟩
  rw [serialAt_withSched, serialAt_withSched]
  exact takeMove_serialAt (h.withSched rest) hp hm

end Stages

/-- A run of a calm schedule after the acceptance of a SERIAL PAINT is at one of its stages. -/
theorem serialPaint_run {s s' t : State} {clear : Bool} {k : Nat} (hinv : s.inv = true) (hcalm : s.calm = true)
    (hs : s.cfg.transport = .serial) (hexec : exec (.paint clear) s = .next s') (hrun : run k s' = .next t) :
    AtStage (serialAt s clear) (SerialProgress.Reachable s.cfg.frameLen) t := by
  obtain ⟨hq, -⟩ := acceptReady_eq_next.mp hexec
  have h := State.paintReady_of_inv hinv hq (frameLen_le_of_exec_paint hexec)
  obtain rfl : s' = serialAt s clear ⟨.accepted, fun _ => false⟩ := by
    rw [exec_next hexec, acceptState, hs]
    rfl
  exact (quietStages_serialAt h clear).run (st := ⟨.accepted, fun _ => false⟩) trivial hcalm hrun

theorem SerialStage.eq_done {n : Nat} {st : SerialStage} (h : st.seq n = .ready) : st = .done := by
  cases st with
  | done => rfl
  | sending i | sent i => by_cases hi : i + 1 < n <;> simp [SerialStage.seq, serialNext, hi] at h
  | accepted | loaded | overlapped => cases h

/-- Settles O27: a run of quiet moves is at a stage of the PAINT, and the only one in READY is in the state of R147,
with the overlaps taken on the way. -/
theorem serialPaintEndStateUnderEverySchedule : Obligations.SerialPaintEndStateUnderEverySchedule := by
  unfold Obligations.SerialPaintEndStateUnderEverySchedule
  intro s s' t clear k hinv hcalm hq hs hexec hrun hready
  obtain ⟨-, ⟨st, early⟩, -, ht⟩ := serialPaint_run hinv hcalm hs hexec hrun
  obtain rfl : st = .done := by
    rw [ht] at hready
    exact SerialStage.eq_done ((serialAt_seq hq ⟨st, early⟩).symm.trans hready)
  exact ⟨early, ht⟩

end Sys2Proof.Machine
end

section
/-! PROOF. The life of a BATCHED PAINT from its acceptance to READY under every quiet schedule (R145): chunk by chunk a
batch is opened, filled, closed, and delivered by the bus environment, and no quiet move does anything else. -/

namespace Sys2Proof.Machine

/-! ### The micro-steps Q_* -/

theorem microStep_qOpen {s : State} (hq : s.seq = .qOpen) (hready : s.busReady = true) (hopen : s.txOpen = false)
    (hidle : s.txBusy = false) (hroom : 0 < s.cfg.txbufCap) :
    microStep s = .next { s with txBuf := [ctrlData], txOpen := true, ckIdx := 0, seq := .qFill } := by
  simp [microStep, micro, hq, microQOpen, hidle, txBegin, hready, hopen, txWrite, hroom]

theorem microQFill_eq {s : State} (hk : s.ckIdx < s.cfg.chunkSize) (hn : s.ftIdx < s.cfg.frameLen)
    (hl : s.ftIdx < s.fbLen) (hopen : s.txOpen = true) (hroom : s.txBuf.length < s.cfg.txbufCap) :
    microQFill s = .go { s with
      txBuf := s.txBuf ++ [frameByte s.clr s.fb s.ftIdx], trace := s.trace ++ frameRead s.clr s.fb s.ftIdx
      ftIdx := s.ftIdx + 1, ckIdx := s.ckIdx + 1 } := by
  cases hc : s.clr with
  | true => simp [microQFill, hk, nextPixel_clear, hc, txWrite, hopen, hroom, frameByte, frameRead]
  | false =>
    simp [microQFill, hk, nextPixel_read, hc, fbRead, hn, hl, txWrite, hopen, hroom, frameByte, frameRead, State.emit]

theorem micro_of_qFill {s : State} (h : s.seq = .qFill) : micro s = microQFill s := by simp [micro, h]

theorem micro_of_qClose {s : State} (h : s.seq = .qClose) : micro s = microQClose s := by simp [micro, h]

theorem microStep_qFill {s : State} (hq : s.seq = .qFill) (hk : s.ckIdx < s.cfg.chunkSize)
    (hn : s.ftIdx < s.cfg.frameLen) (hl : s.ftIdx < s.fbLen) (hopen : s.txOpen = true)
    (hroom : s.txBuf.length < s.cfg.txbufCap) :
    microStep s = .next { s with
      txBuf := s.txBuf ++ [frameByte s.clr s.fb s.ftIdx], trace := s.trace ++ frameRead s.clr s.fb s.ftIdx
      ftIdx := s.ftIdx + 1, ckIdx := s.ckIdx + 1 } :=
  microStep_of_micro ((micro_of_qFill hq).trans (microQFill_eq hk hn hl hopen hroom))

theorem microStep_qFill_full {s : State} (hq : s.seq = .qFill) (hk : ¬s.ckIdx < s.cfg.chunkSize) :
    microStep s = .next (s.goto .qClose) :=
  microStep_of_micro ((micro_of_qFill hq).trans (if_neg hk))

theorem microStep_qClose_open {s : State} (hq : s.seq = .qClose) (hopen : s.txOpen = true) :
    microStep s = .next { s with txOpen := false, txBusy := true } := by
  simp [microStep, micro_of_qClose hq, microQClose, hopen, txEndStart]

theorem microStep_qClose_busy {s : State} (hq : s.seq = .qClose) (hclosed : s.txOpen = false)
    (hbusy : s.txBusy = true) : microStep s = .next s := by
  simp [microStep, micro_of_qClose hq, microQClose, hclosed, hbusy]

theorem microStep_qClose_more {s : State} (hq : s.seq = .qClose) (hclosed : s.txOpen = false) (hidle : s.txBusy = false)
    (hn : s.ftIdx < s.cfg.frameLen) : microStep s = .next (s.goto .qOpen) := by
  simp [microStep, micro_of_qClose hq, microQClose, hclosed, hidle, hn]

theorem microStep_qClose_last {s : State} (hq : s.seq = .qClose) (hclosed : s.txOpen = false) (hidle : s.txBusy = false)
    (hn : ¬s.ftIdx < s.cfg.frameLen) : microStep s = .next (finishPaint s) := by
  simp [microStep, micro_of_qClose hq, microQClose, hclosed, hidle, hn]

/-! ### The frame in chunks (R12) -/

/-- READY as for any PAINT, with the constraints on the batched parameters (R12). -/
structure State.BatchedPaintReady (s : State) : Prop extends State.PaintReady s where
  chunkPos : 1 ≤ s.cfg.chunkSize
  chunksFill : s.cfg.frameLen / s.cfg.chunkSize * s.cfg.chunkSize = s.cfg.frameLen
  room : s.cfg.chunkSize + 1 ≤ s.cfg.txbufCap

theorem State.batchedPaintReady_of_inv {s : State} (hinv : s.inv = true) (hq : s.seq = .ready)
    (hs : s.cfg.transport = .batched) (hlen : s.cfg.frameLen ≤ s.fbLen) : s.BatchedPaintReady := by
  obtain ⟨hwf, -⟩ := State.inv_iff.mp hinv
  simp only [Cfg.wf, Bool.and_eq_true, and_assoc] at hwf
  obtain ⟨-, -, -, -, -, hbatch, -⟩ := hwf
  simp only [Cfg.batchOk, hs, bne_self_eq_false, Bool.false_or, Bool.and_eq_true, decide_eq_true_eq,
    and_assoc] at hbatch
  obtain ⟨hpos, hmod, hroom, -⟩ := hbatch
  exact { State.paintReady_of_inv hinv hq hlen with
    chunkPos := hpos, chunksFill := Nat.div_mul_cancel (Nat.dvd_of_mod_eq_zero hmod), room := hroom }

theorem State.BatchedPaintReady.withSched {s : State} (h : s.BatchedPaintReady) (r : List Move) :
    { s with sched := r }.BatchedPaintReady :=
  { h.toPaintReady.withSched r with chunkPos := h.chunkPos, chunksFill := h.chunksFill, room := h.room }

/-- A chunk lies within the frame. -/
theorem State.BatchedPaintReady.chunk_le {s : State} (h : s.BatchedPaintReady) {c : Nat}
    (hc : c < s.cfg.frameLen / s.cfg.chunkSize) : c * s.cfg.chunkSize + s.cfg.chunkSize ≤ s.cfg.frameLen :=
  calc c * s.cfg.chunkSize + s.cfg.chunkSize
    _ = (c + 1) * s.cfg.chunkSize := (Nat.add_one_mul ..).symm
    _ ≤ s.cfg.frameLen / s.cfg.chunkSize * s.cfg.chunkSize := Nat.mul_le_mul_right _ hc
    _ = s.cfg.frameLen := h.chunksFill

/-- Bytes are left after a chunk exactly if chunks are. -/
theorem State.BatchedPaintReady.chunk_lt_iff {s : State} (h : s.BatchedPaintReady) (c : Nat) :
    c * s.cfg.chunkSize + s.cfg.chunkSize < s.cfg.frameLen ↔ c + 1 < s.cfg.frameLen / s.cfg.chunkSize := by
  rw [← Nat.mul_lt_mul_right (a := s.cfg.chunkSize) (b := c + 1) h.chunkPos, h.chunksFill, Nat.add_one_mul]

theorem frameBytes_succ (clear : Bool) (fb : Memory) (lo n : Nat) :
    frameBytes clear fb lo (n + 1) = frameBytes clear fb lo n ++ [frameByte clear fb (lo + n)] := by
  simp [frameBytes, List.range_succ]

theorem length_frameBytes (clear : Bool) (fb : Memory) (lo n : Nat) : (frameBytes clear fb lo n).length = n := by
  simp [frameBytes]

/-! ### The stages -/

/-- How far a BATCHED PAINT is: about to open the batch of chunk `c`; the batch open, with `k` bytes of the chunk; full
and about to be closed; closed and on its way; delivered; the PAINT completed. -/
inductive BatchedStage where
  | opening (c : Nat)
  | filling (c k : Nat)
  | closing (c : Nat)
  | flushing (c : Nat)
  | flushed (c : Nat)
  | done

/-- The stage after a turn of the block. A batch on its way is waited for. -/
def BatchedStage.next (g : Cfg) (st : BatchedStage) : BatchedStage :=
  match st with
  | .opening c => .filling c 0
  | .filling c k => if k < g.chunkSize then .filling c (k + 1) else .closing c
  | .closing c => .flushing c
  | .flushing c => .flushing c
  | .flushed c => if c + 1 < g.frameLen / g.chunkSize then .opening (c + 1) else .done
  | .done => .done

/-- The stage after the delivery of the batch on its way, if there is one. -/
def BatchedStage.delivered (st : BatchedStage) : BatchedStage :=
  match st with
  | .flushing c => .flushed c
  | st => st

/-- The stage after a quiet move. -/
def BatchedStage.after (g : Cfg) (st : BatchedStage) (m : Move) : BatchedStage :=
  match m with
  | .block => st.next g
  | .batchDone => st.delivered
  | _ => st

/-- The chunks are those of the frame, and no batch holds more than one. -/
def BatchedStage.Reachable (g : Cfg) (st : BatchedStage) : Prop :=
  match st with
  | .opening c | .closing c | .flushing c | .flushed c => c < g.frameLen / g.chunkSize
  | .filling c k => c < g.frameLen / g.chunkSize ∧ k ≤ g.chunkSize
  | .done => True

theorem BatchedStage.Reachable.next {g : Cfg} {st : BatchedStage} (h : st.Reachable g) : (st.next g).Reachable g := by
  cases st with
  | opening c => exact ⟨h, Nat.zero_le _⟩
  | filling c k =>
    obtain ⟨hc, -⟩ := h
    by_cases hk : k < g.chunkSize
    · rw [BatchedStage.next, if_pos hk]
      exact ⟨hc, hk⟩
    · rw [BatchedStage.next, if_neg hk]
      exact hc
  | flushed c => by_cases hc : c + 1 < g.frameLen / g.chunkSize <;> simp [BatchedStage.next, BatchedStage.Reachable, hc]
  | closing | flushing | done => exact h

theorem BatchedStage.Reachable.delivered {g : Cfg} {st : BatchedStage} (h : st.Reachable g) :
    st.delivered.Reachable g := by
  cases st <;> exact h

theorem BatchedStage.Reachable.after {g : Cfg} {st : BatchedStage} (h : st.Reachable g) (m : Move) :
    (st.after g m).Reachable g := by
  unfold BatchedStage.after
  split
  · exact h.next
  · exact h.delivered
  · exact h

/-- The micro-state of a stage (R31). -/
def BatchedStage.seq : BatchedStage → MicroState
  | .opening _ => .qOpen
  | .filling _ _ => .qFill
  | .closing _ | .flushing _ | .flushed _ => .qClose
  | .done => .ready

/-! ### The state at a stage -/

/-- The events of the first `c` chunks (R146). -/
def chunksEvents (g : Cfg) (clear : Bool) (fb : Memory) (c : Nat) : List Event :=
  (List.range c).flatMap (chunkEvents g.periphAddr clear fb g.chunkSize)

/-- The reads of the first `k` bytes of chunk `c` (R145). -/
def chunkReads (g : Cfg) (clear : Bool) (fb : Memory) (c k : Nat) : List Event :=
  (List.range k).flatMap fun j => frameRead clear fb (c * g.chunkSize + j)

theorem chunksEvents_succ (g : Cfg) (clear : Bool) (fb : Memory) (c : Nat) :
    chunksEvents g clear fb (c + 1) = chunksEvents g clear fb c ++ chunkReads g clear fb c g.chunkSize ++
      [.batch g.periphAddr (dataBatch (frameBytes clear fb (c * g.chunkSize) g.chunkSize))] := by
  simp [chunksEvents, chunkReads, chunkEvents, List.range_succ]

theorem chunkReads_succ (g : Cfg) (clear : Bool) (fb : Memory) (c k : Nat) :
    chunkReads g clear fb c (k + 1) = chunkReads g clear fb c k ++ frameRead clear fb (c * g.chunkSize + k) := by
  simp [chunkReads, List.range_succ]

/-- The events up to a stage (R146). -/
def BatchedStage.events (g : Cfg) (clear : Bool) (fb : Memory) (st : BatchedStage) : List Event :=
  match st with
  | .opening c => chunksEvents g clear fb c
  | .filling c k => chunksEvents g clear fb c ++ chunkReads g clear fb c k
  | .closing c | .flushing c => chunksEvents g clear fb c ++ chunkReads g clear fb c g.chunkSize
  | .flushed c => chunksEvents g clear fb (c + 1)
  | .done => batchedFrameEvents g.periphAddr clear fb g.frameLen g.chunkSize

/-- `ck_idx` when the batch of chunk `c` is opened: what the chunk before it left (R145). -/
def openingCkIdx (s : State) : Nat → Nat
  | 0 => s.ckIdx
  | _ + 1 => s.cfg.chunkSize

/-- A BATCHED PAINT of `s` at a stage, with `i` bytes of the frame in batches, `k` of them in the current one. -/
@[simp] def inBatchedPaint (s : State) (clear : Bool) (st : BatchedStage) (i k : Nat) : State :=
  { s with
    seq := st.seq
    clr := clear
    ftIdx := i
    ckIdx := k
    trace := s.trace ++ st.events s.cfg clear s.fb }

/-- A BATCHED PAINT of `s` at a stage, with `k` bytes of chunk `c` in its batch. -/
@[simp] def inChunk (s : State) (clear : Bool) (st : BatchedStage) (c k : Nat) : State :=
  { inBatchedPaint s clear st (c * s.cfg.chunkSize + k) k with
    txBuf := dataBatch (frameBytes clear s.fb (c * s.cfg.chunkSize) k) }

/-- The state of a BATCHED PAINT accepted in `s`, at a stage. -/
def batchedAt (s : State) (clear : Bool) (st : BatchedStage) : State :=
  match st with
  | .opening c => inBatchedPaint s clear st (c * s.cfg.chunkSize) (openingCkIdx s c)
  | .filling c k => { inChunk s clear st c k with txOpen := true }
  | .closing c => { inChunk s clear st c s.cfg.chunkSize with txOpen := true }
  | .flushing c => { inChunk s clear st c s.cfg.chunkSize with txBusy := true }
  | .flushed c => inBatchedPaint s clear st (c * s.cfg.chunkSize + s.cfg.chunkSize) s.cfg.chunkSize
  | .done => batchedPaintDone s clear s.sched

section Stages

variable {s : State} {clear : Bool}

theorem batchedAt_withSched (st : BatchedStage) (r : List Move) :
    { batchedAt s clear st with sched := r } = batchedAt { s with sched := r } clear st := by
  cases st with
  | opening c => cases c <;> rfl
  | filling | closing | flushing | flushed | done => rfl

theorem batchedAt_seq (hq : s.seq = .ready) (st : BatchedStage) : (batchedAt s clear st).seq = st.seq := by
  cases st with
  | done => exact hq
  | opening | filling | closing | flushing | flushed => rfl

theorem BatchedStage.seq_ne_iSleep (st : BatchedStage) : st.seq ≠ .iSleep := by
  cases st <;> simp [BatchedStage.seq]

theorem accepted_eq_batchedAt :
    { s with clr := clear, ftIdx := 0, seq := .qOpen } = batchedAt s clear (.opening 0) := by
  simp [batchedAt, BatchedStage.seq, BatchedStage.events, chunksEvents, openingCkIdx]

/-! ### One quiet move -/

theorem microStep_batchedAt_opening (h : s.BatchedPaintReady) (c : Nat) :
    microStep (batchedAt s clear (.opening c)) = .next (batchedAt s clear (.filling c 0)) := by
  rw [microStep_qOpen (s := batchedAt s clear (.opening c)) rfl h.busReady h.txOpen h.txBusy
    (Nat.lt_of_lt_of_le (Nat.succ_pos _) h.room)]
  simp [batchedAt, BatchedStage.seq, BatchedStage.events, chunkReads, frameBytes, dataBatch]

/-- A batch with room for a byte of its chunk gets the next one (R145). -/
theorem microStep_batchedAt_filling (h : s.BatchedPaintReady) {c k : Nat}
    (hc : c < s.cfg.frameLen / s.cfg.chunkSize) (hk : k < s.cfg.chunkSize) :
    microStep (batchedAt s clear (.filling c k)) = .next (batchedAt s clear (.filling c (k + 1))) := by
  have hn : c * s.cfg.chunkSize + k < s.cfg.frameLen :=
    Nat.lt_of_lt_of_le (Nat.add_lt_add_left hk _) (h.chunk_le hc)
  have hroom : (dataBatch (frameBytes clear s.fb (c * s.cfg.chunkSize) k)).length < s.cfg.txbufCap := by
    rw [dataBatch, List.length_cons, length_frameBytes]
    exact Nat.lt_of_lt_of_le (Nat.succ_lt_succ hk) h.room
  rw [microStep_qFill (s := batchedAt s clear (.filling c k)) rfl hk hn (Nat.lt_of_lt_of_le hn h.len) rfl hroom]
  simp [batchedAt, BatchedStage.seq, BatchedStage.events, chunkReads_succ, frameBytes_succ, dataBatch, Nat.add_assoc]

theorem microStep_batchedAt_full (c : Nat) :
    microStep (batchedAt s clear (.filling c s.cfg.chunkSize)) = .next (batchedAt s clear (.closing c)) :=
  microStep_qFill_full rfl (Nat.lt_irrefl _)

theorem microStep_batchedAt_closing (h : s.BatchedPaintReady) (c : Nat) :
    microStep (batchedAt s clear (.closing c)) = .next (batchedAt s clear (.flushing c)) := by
  rw [microStep_qClose_open (s := batchedAt s clear (.closing c)) rfl rfl]
  simp [batchedAt, BatchedStage.seq, BatchedStage.events, h.txOpen]

/-- The last chunk delivered, the PAINT completes in the state of R147. -/
theorem finishPaint_batchedAt (h : s.BatchedPaintReady) {c : Nat} (hc : c + 1 = s.cfg.frameLen / s.cfg.chunkSize) :
    finishPaint (batchedAt s clear (.flushed c)) = batchedAt s clear .done := by
  have hft : c * s.cfg.chunkSize + s.cfg.chunkSize = s.cfg.frameLen := by
    rw [← Nat.add_one_mul, hc, h.chunksFill]
  simp only [batchedAt, inBatchedPaint, BatchedStage.events, finishPaint, batchedPaintDone, batchedFrameEvents,
    chunksEvents, hft, hc, h.seq]
  rfl

theorem microStep_batchedAt_flushed (h : s.BatchedPaintReady) {c : Nat} (hc : c < s.cfg.frameLen / s.cfg.chunkSize) :
    microStep (batchedAt s clear (.flushed c)) = .next (batchedAt s clear ((BatchedStage.flushed c).next s.cfg)) := by
  by_cases hmore : c + 1 < s.cfg.frameLen / s.cfg.chunkSize
  · rw [microStep_qClose_more (s := batchedAt s clear (.flushed c)) rfl h.txOpen h.txBusy
      ((h.chunk_lt_iff c).mpr hmore), BatchedStage.next, if_pos hmore]
    simp [batchedAt, BatchedStage.seq, BatchedStage.events, openingCkIdx, State.goto, Nat.add_one_mul]
  · rw [microStep_qClose_last (s := batchedAt s clear (.flushed c)) rfl h.txOpen h.txBusy
      (fun hlt => hmore ((h.chunk_lt_iff c).mp hlt)), BatchedStage.next, if_neg hmore,
      finishPaint_batchedAt h (by omega)]

/-- A turn of the block takes a BATCHED PAINT to the next stage. -/
theorem microStep_batchedAt (h : s.BatchedPaintReady) {st : BatchedStage} (hst : st.Reachable s.cfg) :
    microStep (batchedAt s clear st) = .next (batchedAt s clear (st.next s.cfg)) := by
  cases st with
  | opening c => exact microStep_batchedAt_opening h c
  | filling c k =>
    obtain ⟨hc, hk⟩ := hst
    obtain hlt | rfl := Nat.lt_or_eq_of_le hk
    · rw [microStep_batchedAt_filling h hc hlt, BatchedStage.next, if_pos hlt]
    · rw [microStep_batchedAt_full, BatchedStage.next, if_neg (Nat.lt_irrefl _)]
  | closing c => exact microStep_batchedAt_closing h c
  | flushing c => exact microStep_qClose_busy rfl h.txOpen rfl
  | flushed c => exact microStep_batchedAt_flushed h hst
  | done => exact microStep_ready h.seq

/-- BatchDone delivers the batch on its way; else there is none. -/
theorem batchDone_batchedAt (h : s.BatchedPaintReady) (st : BatchedStage) :
    batchDone (batchedAt s clear st) = batchedAt s clear st.delivered := by
  cases st with
  | flushing c =>
    simp [batchDone, batchedAt, BatchedStage.delivered, BatchedStage.seq, BatchedStage.events, chunksEvents_succ,
      h.txBusy, h.txBuf]
  | opening | filling | closing | flushed | done => exact batchDone_idle h.txBusy

/-- No byte is on its way on BATCHED. -/
theorem serialDone_batchedAt (h : s.BatchedPaintReady) (st : BatchedStage) :
    serialDone (batchedAt s clear st) = batchedAt s clear st := by
  cases st <;> exact serialDone_idle h.spiBusy

theorem takeMove_batchedAt (h : s.BatchedPaintReady) {st : BatchedStage} (hst : st.Reachable s.cfg) {m : Move}
    (hm : m.quiet = true) :
    takeMove exec m (batchedAt s clear st) = .next (batchedAt s clear (st.after s.cfg m)) := by
  cases m with
  | block => exact microStep_batchedAt h hst
  | serialDone => exact congrArg _ (serialDone_batchedAt h st)
  | batchDone => exact congrArg _ (batchDone_batchedAt h st)
  | irq => exact congrArg _ (wake_of_seq_ne (batchedAt_seq h.seq st ▸ st.seq_ne_iSleep))
  | present | fbWrite | fbSupply | button | platform | foreignDrive | reset => cases hm

/-- Every quiet move takes a BATCHED PAINT from its stage to the one of `BatchedStage.after`, and does nothing else. -/
theorem quietStages_batchedAt (h : s.BatchedPaintReady) (clear : Bool) :
    QuietStages (batchedAt s clear) (BatchedStage.Reachable s.cfg) (BatchedStage.after s.cfg) := by
  intro st m rest hst hm
  refine ⟨hst.after m, ?_⟩
  rw [batchedAt_withSched, batchedAt_withSched]
  exact takeMove_batchedAt (h.withSched rest) hst hm

theorem State.BatchedPaintReady.reachable_opening (h : s.BatchedPaintReady) :
    (BatchedStage.opening 0).Reachable s.cfg := by
  refine Nat.pos_of_ne_zero fun hzero => ?_
  have hfill := h.chunksFill
  have hpos := h.pos
  rw [hzero] at hfill
  omega

end Stages

/-- A run of a calm schedule after the acceptance of a BATCHED PAINT is at one of its stages. -/
theorem batchedPaint_run {s s' t : State} {clear : Bool} {k : Nat} (hinv : s.inv = true) (hcalm : s.calm = true)
    (hs : s.cfg.transport = .batched) (hexec : exec (.paint clear) s = .next s') (hrun : run k s' = .next t) :
    AtStage (batchedAt s clear) (BatchedStage.Reachable s.cfg) t := by
  obtain ⟨hq, -⟩ := acceptReady_eq_next.mp hexec
  have h := State.batchedPaintReady_of_inv hinv hq hs (frameLen_le_of_exec_paint hexec)
  obtain rfl : s' = batchedAt s clear (.opening 0) := by
    rw [exec_next hexec, acceptState, hs, ← accepted_eq_batchedAt, paintStart]
  exact (quietStages_batchedAt h clear).run h.reachable_opening hcalm hrun

theorem BatchedStage.eq_done {st : BatchedStage} (h : st.seq = .ready) : st = .done := by
  cases st with
  | done => rfl
  | opening | filling | closing | flushing | flushed => cases h

/-- Settles O28: a run of quiet moves is at a stage of the PAINT, and the only one in READY is in the state of R147. -/
theorem batchedPaintEndStateUnderEverySchedule : Obligations.BatchedPaintEndStateUnderEverySchedule := by
  unfold Obligations.BatchedPaintEndStateUnderEverySchedule
  intro s s' t clear k hinv hcalm hq hs hexec hrun hready
  obtain ⟨-, st, -, ht⟩ := batchedPaint_run hinv hcalm hs hexec hrun
  obtain rfl : st = .done := by
    rw [ht] at hready
    exact BatchedStage.eq_done ((batchedAt_seq hq st).symm.trans hready)
  exact ht

end Sys2Proof.Machine
end

section
/-! PROOF. PAINT on a bus that never stalls: what the block starts in a turn is delivered at once, and the turns are
counted (R143, R145, R173). -/

namespace Sys2Proof.Machine

/-! ### SERIAL: one turn before the first byte, and two for each byte -/

/-- A byte takes two turns: it is started and delivered, and the next one is read, or the PAINT completed. -/
theorem SerialProgress.foldl_loaded (n i : Nat) (early : Nat → Bool) :
    (promptTurns 2).foldl (SerialProgress.after n) ⟨.loaded i, early⟩ = (SerialProgress.mk (.sent i) early).next n := by
  have hdelivered : ((SerialProgress.mk (.sent i) early).next n).delivered =
      (SerialProgress.mk (.sent i) early).next n := by
    by_cases hi : i + 1 < n <;> simp [SerialProgress.next, SerialProgress.delivered, hi]
  exact hdelivered

/-- With byte `i` in the latch and `k` more after it, the frame is complete in `2 * (k + 1)` turns. -/
theorem SerialProgress.stage_foldl_loaded {n i k : Nat} (hleft : i + k + 1 = n) (early : Nat → Bool) :
    ((promptTurns (2 * (k + 1))).foldl (SerialProgress.after n) ⟨.loaded i, early⟩).stage = .done := by
  induction k generalizing i early with
  | zero =>
    rw [Nat.zero_add, Nat.mul_one, foldl_loaded]
    exact if_neg (by omega)
  | succ k ih =>
    have hi : i + 1 < n := by omega
    have hmore : (SerialProgress.mk (.sent i) early).next n = ⟨.loaded (i + 1), chooseSlot early i false⟩ := by
      simp [SerialProgress.next, hi]
    rw [Nat.mul_succ, Nat.add_comm, promptTurns_add, List.foldl_append, foldl_loaded, hmore]
    exact ih (by omega) _

/-- On a bus that never stalls a SERIAL PAINT of `N` bytes completes in `2 * N + 1` turns. -/
theorem SerialProgress.stage_foldl_accepted {n : Nat} (hn : 1 ≤ n) (early : Nat → Bool) :
    ((promptTurns (2 * n + 1)).foldl (SerialProgress.after n) ⟨.accepted, early⟩).stage = .done := by
  obtain ⟨k, rfl⟩ : ∃ k, n = k + 1 := ⟨n - 1, by omega⟩
  exact SerialProgress.stage_foldl_loaded (by omega) early

theorem plays_serialPaint {s : State} (h : s.PaintReady) (clear : Bool) :
    ∃ t, Plays (promptTurns (2 * s.cfg.frameLen + 1)) { s with clr := clear, ftIdx := 0, seq := .pFetch } t ∧
      t.seq = .ready := by
  have hplays := (quietStages_serialAt h clear).plays (promptTurns_quiet (2 * s.cfg.frameLen + 1))
    (st := ⟨.accepted, fun _ => false⟩) trivial
  refine ⟨_, hplays, ?_⟩
  rw [serialAt_seq h.seq, SerialProgress.stage_foldl_accepted h.pos, SerialStage.seq]

/-! ### BATCHED: four turns for each chunk, and one for each byte -/

theorem BatchedStage.foldl_promptTurns_succ (g : Cfg) (k : Nat) (st : BatchedStage) :
    (promptTurns (k + 1)).foldl (BatchedStage.after g) st =
      (promptTurns k).foldl (BatchedStage.after g) (st.next g).delivered := rfl

theorem BatchedStage.foldl_filling {g : Cfg} {c j k : Nat} (hleft : k + j = g.chunkSize) :
    (promptTurns j).foldl (BatchedStage.after g) (.filling c k) = .filling c g.chunkSize := by
  induction j generalizing k with
  | zero => rw [← hleft]; rfl
  | succ j ih =>
    have hroom : (BatchedStage.filling c k).next g = .filling c (k + 1) := if_pos (by omega)
    rw [foldl_promptTurns_succ, hroom]
    exact ih (by omega)

/-- A chunk takes `CHUNK_SIZE + 4` turns. -/
theorem BatchedStage.foldl_opening (g : Cfg) (c : Nat) :
    (promptTurns (g.chunkSize + 4)).foldl (BatchedStage.after g) (.opening c) = (BatchedStage.flushed c).next g := by
  have hfull : (BatchedStage.filling c g.chunkSize).next g = .closing c := if_neg (Nat.lt_irrefl _)
  have hdelivered : ((BatchedStage.flushed c).next g).delivered = (BatchedStage.flushed c).next g := by
    by_cases hc : c + 1 < g.frameLen / g.chunkSize <;> simp [BatchedStage.next, BatchedStage.delivered, hc]
  calc (promptTurns (g.chunkSize + 4)).foldl (BatchedStage.after g) (.opening c)
    _ = (promptTurns (g.chunkSize + 3)).foldl (BatchedStage.after g) (.filling c 0) := rfl
    _ = (promptTurns 3).foldl (BatchedStage.after g) (.filling c g.chunkSize) := by
      rw [promptTurns_add, List.foldl_append, foldl_filling (Nat.zero_add _)]
    _ = (promptTurns 2).foldl (BatchedStage.after g) (.closing c) := by rw [foldl_promptTurns_succ, hfull]; rfl
    _ = ((BatchedStage.flushed c).next g).delivered := rfl
    _ = (BatchedStage.flushed c).next g := hdelivered

/-- With chunk `c` to open and `k` more after it, the frame is complete in `CHUNK_SIZE + 4` turns for each of them. -/
theorem BatchedStage.foldl_opening_all {g : Cfg} {c k : Nat} (hleft : c + k + 1 = g.frameLen / g.chunkSize) :
    (promptTurns ((g.chunkSize + 4) * (k + 1))).foldl (BatchedStage.after g) (.opening c) = .done := by
  induction k generalizing c with
  | zero =>
    rw [Nat.zero_add, Nat.mul_one, foldl_opening]
    exact if_neg (by omega)
  | succ k ih =>
    have hmore : (BatchedStage.flushed c).next g = .opening (c + 1) := if_pos (by omega)
    rw [Nat.mul_succ, Nat.add_comm, promptTurns_add, List.foldl_append, foldl_opening, hmore]
    exact ih (by omega)

theorem plays_batchedPaint {s : State} (h : s.BatchedPaintReady) (clear : Bool) :
    ∃ t, Plays (promptTurns ((s.cfg.chunkSize + 4) * (s.cfg.frameLen / s.cfg.chunkSize)))
      { s with clr := clear, ftIdx := 0, seq := .qOpen } t ∧ t.seq = .ready := by
  have hplays := (quietStages_batchedAt h clear).plays
    (promptTurns_quiet ((s.cfg.chunkSize + 4) * (s.cfg.frameLen / s.cfg.chunkSize))) h.reachable_opening
  obtain ⟨k, hk⟩ : ∃ k, s.cfg.frameLen / s.cfg.chunkSize = k + 1 := Nat.exists_eq_succ_of_ne_zero
    (Nat.ne_of_gt h.reachable_opening)
  have hdone : (promptTurns ((s.cfg.chunkSize + 4) * (s.cfg.frameLen / s.cfg.chunkSize))).foldl
      (BatchedStage.after s.cfg) (.opening 0) = .done := by
    rw [hk]
    exact BatchedStage.foldl_opening_all (by omega)
  rw [hdone, ← accepted_eq_batchedAt] at hplays
  exact ⟨_, hplays, h.seq⟩

/-- On a bus that never stalls an accepted PAINT completes in the turns its transport needs. -/
theorem plays_promptPaint {s : State} (hinv : s.inv = true) (hq : s.seq = .ready) (hlen : s.cfg.frameLen ≤ s.fbLen)
    (clear : Bool) :
    ∃ t, Plays (promptTurns (turnsNeeded s.cfg (.paint clear))) (acceptState (.paint clear) s) t ∧ t.seq = .ready := by
  cases hs : s.cfg.transport with
  | serial =>
    simp only [turnsNeeded, acceptState, hs]
    exact plays_serialPaint (State.paintReady_of_inv hinv hq hlen) clear
  | batched =>
    simp only [turnsNeeded, acceptState, hs]
    exact plays_batchedPaint (State.batchedPaintReady_of_inv hinv hq hs hlen) clear

/-- Settles O30: the accepted PAINT plays the prompt turns. -/
theorem paintCompletesOnAPromptBus : Obligations.PaintCompletesOnAPromptBus := by
  unfold Obligations.PaintCompletesOnAPromptBus
  intro s clear rest hinv hq hlen
  obtain ⟨t, hplays, hready⟩ := plays_promptPaint hinv hq hlen clear
  have hrun := hplays rest
  rw [promptTurns_length] at hrun
  exact ⟨_, _, exec_paint clear hq hlen, hrun, hready, rfl⟩

end Sys2Proof.Machine
end

section
/-! PROOF. What a PAINT sends and reads (R142, R144). -/

namespace Sys2Proof.Machine

/-! ### Reads -/

theorem readIndices_append (es es' : List Event) : readIndices (es ++ es') = readIndices es ++ readIndices es' := by
  induction es with
  | nil => rfl
  | cons e es ih => cases e <;> simp [readIndices, ih]

theorem readIndices_flatMap (l : List Nat) (f : Nat → List Event) :
    readIndices (l.flatMap f) = l.flatMap fun i => readIndices (f i) := by
  induction l with
  | nil => rfl
  | cons i l ih => rw [List.flatMap_cons, readIndices_append, ih, List.flatMap_cons]

@[simp] theorem readIndices_frameRead (clear : Bool) (fb : Memory) (i : Nat) :
    readIndices (frameRead clear fb i) = if clear then [] else [i] := by
  cases clear <;> rfl

/-- A slot reads the next byte, whether its overlap is taken or not. -/
theorem readIndices_serialSlot (clear : Bool) (fb : Memory) (n : Nat) (early : Nat → Bool) (i : Nat) :
    readIndices (serialSlot clear fb n early i) =
      if i + 1 < n then readIndices (frameRead clear fb (i + 1)) else [] := by
  unfold serialSlot
  split
  · split
    · exact (readIndices_append ..).trans (List.append_nil _)
    · rfl
  · rfl

theorem readIndices_slotEvents {fb : Memory} {n i : Nat} {early : Nat → Bool} (hi : i < n) :
    readIndices (slotEvents false fb n early i) = List.range (i + 1) := by
  induction i with
  | zero => rw [slotEvents_zero]; rfl
  | succ i ih =>
    rw [slotEvents_succ, readIndices_append, ih (Nat.lt_of_succ_lt hi), readIndices_serialSlot, if_pos hi,
      List.range_succ (n := i + 1)]
    simp

theorem readIndices_slotEvents_clear (fb : Memory) (n i : Nat) (early : Nat → Bool) :
    readIndices (slotEvents true fb n early i) = [] := by
  simp [slotEvents, readIndices_append, readIndices_flatMap, readIndices_serialSlot]

/-- Every index of the frame is read once, in order, and on the clear path none is (R142, R144). -/
theorem readIndices_serialFrameEvents {n : Nat} (hn : 1 ≤ n) (clear : Bool) (fb : Memory) (early : Nat → Bool) :
    readIndices (serialFrameEvents clear fb n early) = if clear then [] else List.range n := by
  cases clear with
  | true => exact readIndices_slotEvents_clear fb n n early
  | false =>
    obtain ⟨m, rfl⟩ : ∃ m, n = m + 1 := ⟨n - 1, by omega⟩
    have hevents : serialFrameEvents false fb (m + 1) early =
        slotEvents false fb (m + 1) early m ++ [.serial (frameByte false fb m)] := slotEvents_last rfl
    rw [hevents, readIndices_append, readIndices_slotEvents (Nat.lt_succ_self m)]
    simp [readIndices]

theorem flatMap_range_chunks {α : Type} (f : Nat → α) (c size : Nat) :
    ((List.range c).flatMap fun i => (List.range size).map fun k => f (i * size + k)) =
      (List.range (c * size)).map f := by
  induction c with
  | zero => simp
  | succ c ih => simp [List.range_succ, ih, Nat.add_one_mul, List.range_add]

theorem readIndices_chunkReads (g : Cfg) (clear : Bool) (fb : Memory) (c k : Nat) :
    readIndices (chunkReads g clear fb c k) =
      if clear then [] else (List.range k).map fun j => c * g.chunkSize + j := by
  cases clear <;> simp [chunkReads, readIndices_flatMap, List.map_eq_flatMap]

theorem readIndices_chunksEvents (g : Cfg) (clear : Bool) (fb : Memory) (c : Nat) :
    readIndices (chunksEvents g clear fb c) = if clear then [] else List.range (c * g.chunkSize) := by
  induction c with
  | zero => simp [chunksEvents, readIndices]
  | succ c ih =>
    rw [chunksEvents_succ, readIndices_append, readIndices_append, ih, readIndices_chunkReads]
    cases clear <;> simp [readIndices, Nat.add_one_mul, List.range_add]

/-! ### Bytes on the wire -/

theorem wireFrom_frameRead_append (m : LinkMode) (clear : Bool) (fb : Memory) (i : Nat) (es : List Event) :
    wireFrom m (frameRead clear fb i ++ es) = wireFrom m es := by
  cases clear <;> rfl

/-- A slot sends its one byte, whether its overlap is taken or not. -/
theorem wireFrom_serialSlot_append (m : LinkMode) (clear : Bool) (fb : Memory) (n : Nat) (early : Nat → Bool) (i : Nat)
    (es : List Event) :
    wireFrom m (serialSlot clear fb n early i ++ es) = (m, frameByte clear fb i) :: wireFrom m es := by
  unfold serialSlot
  split
  · split
    · rw [List.append_assoc, wireFrom_frameRead_append]
      rfl
    · exact congrArg _ (wireFrom_frameRead_append m clear fb (i + 1) es)
  · rfl

theorem wireFrom_serialSlots (m : LinkMode) (clear : Bool) (fb : Memory) (n : Nat) (early : Nat → Bool) (l : List Nat) :
    wireFrom m (l.flatMap (serialSlot clear fb n early)) = l.map fun i => (m, frameByte clear fb i) := by
  induction l with
  | nil => rfl
  | cons i l ih => rw [List.flatMap_cons, wireFrom_serialSlot_append, ih, List.map_cons]

/-- The bytes of the frame go out once each, in order (R142). -/
theorem wireFrom_serialFrameEvents (m : LinkMode) (clear : Bool) (fb : Memory) (n : Nat) (early : Nat → Bool) :
    wireFrom m (serialFrameEvents clear fb n early) = (List.range n).map fun i => (m, frameByte clear fb i) := by
  rw [serialFrameEvents, wireFrom_frameRead_append, wireFrom_serialSlots]

theorem wireFrom_reads_append (m : LinkMode) (clear : Bool) (fb : Memory) (lo : Nat) (l : List Nat) (es : List Event) :
    wireFrom m ((l.flatMap fun k => frameRead clear fb (lo + k)) ++ es) = wireFrom m es := by
  induction l with
  | nil => rfl
  | cons k l ih => rw [List.flatMap_cons, List.append_assoc, wireFrom_frameRead_append, ih]

/-- A chunk sends its bytes in data mode, by its control byte (R84). -/
theorem wireFrom_chunkEvents_append (addr : Nat) (clear : Bool) (fb : Memory) (size c : Nat) (es : List Event) :
    wireFrom .data (chunkEvents addr clear fb size c ++ es) =
      ((List.range size).map fun k => (LinkMode.data, frameByte clear fb (c * size + k))) ++ wireFrom .data es := by
  have hctrl : ctrlData ≠ ctrlCmd := by decide
  rw [chunkEvents, List.append_assoc, wireFrom_reads_append]
  simp [wireFrom, dataBatch, frameBytes, hctrl]

theorem wireFrom_chunks (addr : Nat) (clear : Bool) (fb : Memory) (size : Nat) (l : List Nat) :
    wireFrom .data (l.flatMap (chunkEvents addr clear fb size)) =
      l.flatMap fun c => (List.range size).map fun k => (LinkMode.data, frameByte clear fb (c * size + k)) := by
  induction l with
  | nil => rfl
  | cons c l ih => rw [List.flatMap_cons, wireFrom_chunkEvents_append, ih, List.flatMap_cons]

theorem State.frameMode_batched {s : State} (hs : s.cfg.transport = .batched) : s.frameMode = .data := by
  simp [State.frameMode, hs]

/-! ### At the end of a PAINT -/

/-- Settles O31: the traces of R146 hold each byte and each read once, in order. -/
theorem paintSendsTheFrameInRasterOrder : Obligations.PaintSendsTheFrameInRasterOrder := by
  unfold Obligations.PaintSendsTheFrameInRasterOrder
  intro s s' t clear k hinv hcalm hq hexec hrun hready
  have hlen := frameLen_le_of_exec_paint hexec
  cases hs : s.cfg.transport with
  | serial =>
    obtain ⟨early, ht⟩ := serialPaintEndStateUnderEverySchedule s s' t clear k hinv hcalm hq hs hexec hrun hready
    exact ⟨_, congrArg State.trace ht, wireFrom_serialFrameEvents ..,
      readIndices_serialFrameEvents (State.paintReady_of_inv hinv hq hlen).pos clear s.fb early⟩
  | batched =>
    have ht := batchedPaintEndStateUnderEverySchedule s s' t clear k hinv hcalm hq hs hexec hrun hready
    have hfill := (State.batchedPaintReady_of_inv hinv hq hs hlen).chunksFill
    refine ⟨_, congrArg State.trace ht, ?_, ?_⟩
    · rw [State.frameMode_batched hs, batchedFrameEvents, wireFrom_chunks,
        flatMap_range_chunks fun i => (LinkMode.data, frameByte clear s.fb i), hfill]
    · refine (readIndices_chunksEvents s.cfg clear s.fb (s.cfg.frameLen / s.cfg.chunkSize)).trans ?_
      rw [hfill]

/-! ### The clear path, at every moment -/

theorem serialAt_fb (s : State) (clear : Bool) (p : SerialProgress) :
    (serialAt s clear p).fb = s.fb ∧ (serialAt s clear p).fbLen = s.fbLen := by
  obtain ⟨st, early⟩ := p
  cases st <;> exact ⟨rfl, rfl⟩

theorem serialAt_trace (s : State) (clear : Bool) (p : SerialProgress) :
    (serialAt s clear p).trace = s.trace ++ p.events clear s.fb s.cfg.frameLen := by
  obtain ⟨st, early⟩ := p
  cases st with
  | accepted => exact (List.append_nil _).symm
  | loaded | sending | overlapped | sent | done => rfl

theorem readIndices_serialEvents_clear (fb : Memory) (n : Nat) (p : SerialProgress) :
    readIndices (p.events true fb n) = [] := by
  obtain ⟨st, early⟩ := p
  cases st with
  | accepted => rfl
  | loaded i | sending i => exact readIndices_slotEvents_clear fb n i early
  | overlapped i | sent i =>
    simp [SerialProgress.events, readIndices_append, readIndices_slotEvents_clear, readIndices]
  | done => exact readIndices_slotEvents_clear fb n n early

theorem batchedAt_fb (s : State) (clear : Bool) (st : BatchedStage) :
    (batchedAt s clear st).fb = s.fb ∧ (batchedAt s clear st).fbLen = s.fbLen := by
  cases st <;> exact ⟨rfl, rfl⟩

theorem batchedAt_trace (s : State) (clear : Bool) (st : BatchedStage) :
    (batchedAt s clear st).trace = s.trace ++ st.events s.cfg clear s.fb := by
  cases st <;> rfl

theorem readIndices_batchedEvents_clear (g : Cfg) (fb : Memory) (st : BatchedStage) :
    readIndices (st.events g true fb) = [] := by
  cases st with
  | opening c => exact readIndices_chunksEvents g true fb c
  | flushed c => exact readIndices_chunksEvents g true fb (c + 1)
  | done => exact readIndices_chunksEvents g true fb (g.frameLen / g.chunkSize)
  | filling | closing | flushing =>
    simp [BatchedStage.events, readIndices_append, readIndices_chunksEvents, readIndices_chunkReads]

/-- At every moment of a PAINT on the clear path FB is as it was, and no read of it is in the trace (R144). -/
theorem clearPaint_reads_nothing {s s' t : State} {k : Nat} (hinv : s.inv = true) (hcalm : s.calm = true)
    (hexec : exec (.paint true) s = .next s') (hrun : run k s' = .next t) :
    (t.fb = s.fb ∧ t.fbLen = s.fbLen) ∧ ∃ es, t.trace = s.trace ++ es ∧ readIndices es = [] := by
  cases hs : s.cfg.transport with
  | serial =>
    obtain ⟨-, p, -, ht⟩ := serialPaint_run hinv hcalm hs hexec hrun
    rw [ht]
    exact ⟨serialAt_fb s true p, _, serialAt_trace s true p, readIndices_serialEvents_clear _ _ p⟩
  | batched =>
    obtain ⟨-, st, -, ht⟩ := batchedPaint_run hinv hcalm hs hexec hrun
    rw [ht]
    exact ⟨batchedAt_fb s true st, _, batchedAt_trace s true st, readIndices_batchedEvents_clear _ _ st⟩

/-- Settles O32: no stage of a PAINT on the clear path reads FB, and at its end every byte of the frame sent is zero. -/
theorem clearPathNeverReadsTheBuffer : Obligations.ClearPathNeverReadsTheBuffer := by
  unfold Obligations.ClearPathNeverReadsTheBuffer
  intro s s' t k hinv hcalm hq hexec hrun
  obtain ⟨⟨hfb, hfbLen⟩, es, htrace, hreads⟩ := clearPaint_reads_nothing hinv hcalm hexec hrun
  refine ⟨hfb, hfbLen, es, htrace, hreads, fun hready => ?_⟩
  obtain ⟨es', htrace', hwire, -⟩ := paintSendsTheFrameInRasterOrder s s' t true k hinv hcalm hq hexec hrun hready
  obtain rfl : es = es' := List.append_cancel_left (htrace.symm.trans htrace')
  have hzeros : ∀ p ∈ (List.range s.cfg.frameLen).map (fun i => (s.frameMode, frameByte true s.fb i)),
      p = (s.frameMode, 0x00#8) := by
    intro p hp
    obtain ⟨i, -, rfl⟩ := List.mem_map.mp hp
    rfl
  rw [hwire]
  exact List.eq_replicate_iff.mpr ⟨by rw [List.length_map, List.length_range], hzeros⟩

end Sys2Proof.Machine
end

section
/-! PROOF. Acceptance of IDLE and SETIND (R155, R160), and the refusal of every operation outside the ready states. -/

namespace Sys2Proof.Machine

/-! ### Outside the state of acceptance (R175, R192) -/

theorem acceptReady_elsewhere {s : State} (o : Out) (hq : s.seq ≠ .ready) : refuses (acceptReady s o) = true := by
  rw [acceptReady, if_neg hq]
  split <;> rfl

theorem execSetind_missing {s : State} {ch : BitVec 4} (v : Byte) (hch : s.cfg.nChannels ≤ ch.toNat) :
    exec (.setind ch v) s = .refused (.reservedWord .channel) := if_neg (Nat.not_lt.mpr hch)

theorem execSetind_elsewhere {s : State} (ch : BitVec 4) (v : Byte) (hq : s.seq ≠ .ready) :
    refuses (exec (.setind ch v) s) = true := by
  rw [exec, execSetind]
  split
  · exact acceptReady_elsewhere _ hq
  · rfl

theorem execExithalt_elsewhere {s : State} (hready : s.seq ≠ .ready) (hboot : s.seq ≠ .wBoot) :
    refuses (exec .exithalt s) = true := by
  rw [exec, execExithalt, if_neg (not_or.mpr ⟨hready, hboot⟩)]
  rfl

/-- A block that is in neither ready state refuses every operation. -/
theorem exec_elsewhere {s : State} (i : Instr) (hready : s.seq ≠ .ready) (hboot : s.seq ≠ .wBoot) :
    refuses (exec i s) = true := by
  cases i with
  | boot => exact execBoot_elsewhere hboot
  | setind ch v => exact execSetind_elsewhere ch v hready
  | exithalt => exact execExithalt_elsewhere hready hboot
  | paint | setpwr | setinv | setallon | setfliph | setflipv | idle | sendcmd | entercmd | enterdata =>
    exact acceptReady_elsewhere _ hready

/-! ### IDLE (R155) -/

theorem exec_idle {s : State} (hq : s.seq = .ready) : exec .idle s = .next (enterSleep s) := acceptReady_ready hq

theorem microStep_iSleep {s : State} (hq : s.seq = .iSleep) : microStep s = .next s := by simp [microStep, micro, hq]

/-- Settles O35: IDLE is accepted by `enterSleep`, and `I_SLEEP` is no ready state and has no micro-step. -/
theorem idleEntersSleep : Obligations.IdleEntersSleep := by
  unfold Obligations.IdleEntersSleep
  refine ⟨rfl, fun _ => exec_idle, fun _ => acceptReady_elsewhere _, fun _ => microStep_iSleep, fun s i hq => ?_⟩
  exact exec_elsewhere i (by simp [hq]) (by simp [hq])

/-! ### SETIND (R160) -/

/-- An accepted SETIND: nothing changes but the channel and the trace. -/
theorem exec_setind {s : State} {ch : BitVec 4} (v : Byte) (hq : s.seq = .ready) (hch : ch.toNat < s.cfg.nChannels) :
    exec (.setind ch v) s = .next { s with
      ind := s.ind.set ch.toNat (indValue s.cfg v), trace := s.trace ++ [.ind ch.toNat (indValue s.cfg v)] } := by
  rw [exec, execSetind, if_pos hch, acceptReady_ready hq, setIndicator, ← hq]

/-- The word of a SETIND, from its operands (R78, R79). -/
theorem toNat_encode_setind (ch : BitVec 4) (v : Byte) :
    (encode (.setind ch v)).toNat = 0x9000 + ch.toNat * 256 + v.toNat := by
  have hupper : (0x9#4 ++ ch).toNat = 0x90 + ch.toNat := by
    rw [BitVec.toNat_append]
    exact (Nat.shiftLeft_add_eq_or_of_lt ch.isLt 9).symm
  calc (encode (.setind ch v)).toNat
    _ = (0x9#4 ++ ch).toNat * 256 + v.toNat := toNat_packWord _ _ _
    _ = 0x9000 + ch.toNat * 256 + v.toNat := by rw [hupper, Nat.add_mul]

/-- Settles O38: an accepted SETIND stores the value of the indicator variant, and the two refusals are those of the
missing channel and of the state. -/
theorem setindResult : Obligations.SetindResult := by
  unfold Obligations.SetindResult
  refine ⟨toNat_encode_setind, fun s ch v hq hch hi => ?_, fun s ch v hq hch hi => ?_,
    fun _ _ v => execSetind_missing v, fun _ ch v => execSetind_elsewhere ch v⟩
  · rw [exec_setind v hq hch, indValue, hi]
  · rw [exec_setind v hq hch, indValue, hi]

end Sys2Proof.Machine
end

section
/-! PROOF. An idle sleep (R157, R158): under quiet moves the machine sleeps on or is woken by an interrupt, and does
nothing else. -/

namespace Sys2Proof.Machine

/-! ### From the acceptance of IDLE on -/

/-- The moments of an IDLE. -/
inductive SleepStage where
  | asleep
  | awake

/-- An interrupt ends the sleep if interrupts are enabled (R157); nothing else does. -/
def SleepStage.after (irqEn : Bool) (st : SleepStage) (m : Move) : SleepStage :=
  match m with
  | .irq => if irqEn then .awake else st
  | _ => st

/-- The state at a moment of an IDLE accepted in `s`: after the wake only the three events of R158 are new. -/
def sleepAt (s : State) (st : SleepStage) : State :=
  match st with
  | .asleep => enterSleep s
  | .awake => { s with trace := s.trace ++ [.sleep, .irq, .wake] }

theorem sleepAt_withSched (s : State) (st : SleepStage) (r : List Move) :
    { sleepAt s st with sched := r } = sleepAt { s with sched := r } st := by
  cases st <;> rfl

theorem State.phase_of_ready {s : State} (hphase : phaseOk s = true) (hq : s.seq = .ready) : s.phase = .running := by
  simpa [phaseOk, hq, MicroState.inBoot] using hphase

theorem microStep_sleepAt {s : State} (hq : s.seq = .ready) (st : SleepStage) :
    microStep (sleepAt s st) = .next (sleepAt s st) := by
  cases st with
  | asleep => exact microStep_iSleep rfl
  | awake => exact microStep_ready hq

theorem wake_sleepAt {s : State} (hq : s.seq = .ready) (hphase : s.phase = .running) (st : SleepStage) :
    wake (sleepAt s st) = sleepAt s (st.after s.irqEn .irq) := by
  cases hirq : s.irqEn with
  | false => exact if_neg (by cases st <;> simp [sleepAt, enterSleep, hirq])
  | true =>
    cases st with
    | asleep => simp [wake, sleepAt, enterSleep, SleepStage.after, hirq, hq, hphase]
    | awake => exact wake_of_seq_ne (by simp [sleepAt, hq])

theorem quietStages_sleepAt {s : State} (hinv : s.inv = true) (hq : s.seq = .ready) :
    QuietStages (sleepAt s) (fun _ => True) (SleepStage.after s.irqEn) := by
  obtain ⟨-, -, hphaseOk, -⟩ := State.inv_iff.mp hinv
  obtain ⟨-, hspi, -, htx, -⟩ := State.inv_bus_of_ready hinv hq
  have hphase := State.phase_of_ready hphaseOk hq
  intro st m rest _ hm
  refine ⟨trivial, ?_⟩
  rw [sleepAt_withSched, sleepAt_withSched]
  cases m with
  | block => exact microStep_sleepAt (s := { s with sched := rest }) hq st
  | serialDone => exact congrArg _ (serialDone_idle (by cases st <;> exact hspi))
  | batchDone => exact congrArg _ (batchDone_idle (by cases st <;> exact htx))
  | irq => exact congrArg _ (wake_sleepAt (s := { s with sched := rest }) hq hphase st)
  | present | fbWrite | fbSupply | button | platform | foreignDrive | reset => cases hm

/-- Settles O36: a run after the acceptance of an IDLE is at one of its two moments. -/
theorem sleepChangesNothing : Obligations.SleepChangesNothing := by
  unfold Obligations.SleepChangesNothing
  intro s s' t k hinv hcalm hq hexec hrun
  obtain rfl : s' = enterSleep s := exec_next hexec
  obtain ⟨-, st, -, ht⟩ := (quietStages_sleepAt hinv hq).run (st := .asleep) trivial hcalm hrun
  cases st with
  | asleep => exact .inl ht
  | awake => exact .inr ht

/-! ### Without an interrupt that wakes (R157) -/

/-- In a sleep, with quiet moves to come of which none is an interrupt that wakes. -/
def State.SleepsOn (s : State) : Prop :=
  s.seq = .iSleep ∧ s.calm = true ∧ (s.irqEn = false ∨ .irq ∉ s.sched)

theorem takeMove_iSleep {m : Move} {s t : State} (hq : s.seq = .iSleep) (hm : m.quiet = true)
    (hirq : s.irqEn = false ∨ Move.irq ≠ m) (h : takeMove exec m s = .next t) :
    t.seq = .iSleep ∧ t.irqEn = s.irqEn ∧ t.sched = s.sched := by
  cases m with
  | block =>
    obtain rfl : s = t := by simpa [takeMove, microStep_iSleep hq] using h
    exact ⟨hq, rfl, rfl⟩
  | serialDone =>
    cases h
    obtain ⟨-, hd⟩ | ⟨-, hd⟩ := serialDone_cases s <;> rw [hd] <;> exact ⟨hq, rfl, rfl⟩
  | batchDone =>
    cases h
    obtain ⟨-, hd⟩ | ⟨-, hd⟩ := batchDone_cases s <;> rw [hd] <;> exact ⟨hq, rfl, rfl⟩
  | irq =>
    cases h
    have hoff : s.irqEn = false := hirq.resolve_right fun hne => hne rfl
    obtain ⟨-, hon, -⟩ | ⟨-, hw⟩ := wake_cases s
    · exact absurd (hoff.symm.trans hon) Bool.false_ne_true
    · rw [hw]
      exact ⟨hq, rfl, rfl⟩
  | present | fbWrite | fbSupply | button | platform | foreignDrive | reset => cases hm

theorem State.SleepsOn.step {s t : State} (h : s.SleepsOn) (hstep : step s = .next t) : t.SleepsOn := by
  obtain ⟨hq, hcalm, hirq⟩ := h
  obtain ⟨-, hblock⟩ | ⟨m, rest, hsched, htake⟩ := step_cases hstep
  · obtain rfl : s = t := by simpa [microStep_iSleep hq] using hblock
    exact ⟨hq, hcalm, hirq⟩
  · obtain ⟨hm, hrest⟩ : m.quiet = true ∧ rest.all Move.quiet = true := by simpa [State.calm, hsched] using hcalm
    have hnone : s.irqEn = false ∨ Move.irq ≠ m ∧ .irq ∉ rest := by simpa [hsched] using hirq
    obtain ⟨hseq, hen, hleft⟩ := takeMove_iSleep (s := { s with sched := rest }) hq hm (hnone.imp_right And.left) htake
    refine ⟨hseq, ?_, ?_⟩
    · rw [State.calm, hleft]
      exact hrest
    · rw [hen, hleft]
      exact hnone.imp_right And.right

/-- Settles O37: every step of such a schedule keeps `SleepsOn`. -/
theorem sleepWithoutInterruptDoesNotEnd : Obligations.SleepWithoutInterruptDoesNotEnd := by
  unfold Obligations.SleepWithoutInterruptDoesNotEnd
  intro s t k hq hcalm hrun hirq
  obtain ⟨hsleep, -⟩ := run_keeps State.SleepsOn.step ⟨hq, hcalm, hirq⟩ hrun
  exact hsleep

end Sys2Proof.Machine
end

section
/-! PROOF. EXITHALT (R162 to R164): its acceptance, its three micro-steps, and its life from acceptance to `H_LOADER`
under every quiet schedule. -/

namespace Sys2Proof.Machine

/-! ### Acceptance and micro-steps (R162, R163) -/

theorem exec_exithalt {s : State} (hq : s.seq = .ready ∨ s.seq = .wBoot) : exec .exithalt s = .next (s.goto .xIrq) :=
  if_pos hq

theorem seq_of_exec_exithalt {s t : State} (h : exec .exithalt s = .next t) : s.seq = .ready ∨ s.seq = .wBoot := by
  rw [exec, execExithalt] at h
  split at h
  · assumption
  · cases h

theorem microStep_xIrq {s : State} (hq : s.seq = .xIrq) :
    microStep s = .next { s with irqEn := false, trace := s.trace ++ [.irqOff], seq := .xLink } := by
  simp [microStep, micro, hq, microXIrq, State.goto, State.emit]

theorem microStep_xLink {s : State} (hq : s.seq = .xLink) :
    microStep s = .next { s with hostlinkEn := false, trace := s.trace ++ [.hostLinkOff], seq := .xHandoff } := by
  simp [microStep, micro, hq, microXLink, State.goto, State.emit]

theorem microStep_xHandoff {s : State} (hq : s.seq = .xHandoff) : microStep s = .next (enterLoaderHalt s) := by
  simp [microStep, micro, hq, microXHandoff]

theorem microStep_hLoader {s : State} (hq : s.seq = .hLoader) : microStep s = .next s := by
  simp [microStep, micro, hq]

/-- Settles O39: one equation for the acceptance and one for each micro-step. -/
theorem exithaltMicroStepsAsWritten : Obligations.ExithaltMicroStepsAsWritten := by
  unfold Obligations.ExithaltMicroStepsAsWritten
  exact ⟨rfl, fun _ => exec_exithalt, fun _ => execExithalt_elsewhere, fun _ => microStep_xIrq,
    fun _ => microStep_xLink, fun _ => microStep_xHandoff⟩

/-! ### The stages -/

/-- The stages of an EXITHALT: before each of its micro-steps, and after the last. -/
inductive ExitStage where
  | irq
  | link
  | handoff
  | loader

def ExitStage.next : ExitStage → ExitStage
  | .irq => .link
  | .link => .handoff
  | .handoff => .loader
  | .loader => .loader

/-- Only a turn of the block moves an EXITHALT on. -/
def ExitStage.after (st : ExitStage) (m : Move) : ExitStage :=
  match m with
  | .block => st.next
  | _ => st

/-- The state at a stage of an EXITHALT accepted in `s`. -/
def exitAt (s : State) (st : ExitStage) : State :=
  match st with
  | .irq => s.goto .xIrq
  | .link => { s with irqEn := false, trace := s.trace ++ [.irqOff], seq := .xLink }
  | .handoff =>
    { s with irqEn := false, hostlinkEn := false, trace := s.trace ++ [.irqOff, .hostLinkOff], seq := .xHandoff }
  | .loader => exitDone s s.sched

theorem exitAt_withSched (s : State) (st : ExitStage) (r : List Move) :
    { exitAt s st with sched := r } = exitAt { s with sched := r } st := by
  cases st <;> rfl

theorem exitAt_seq_ne_iSleep (s : State) (st : ExitStage) : (exitAt s st).seq ≠ .iSleep := by
  cases st <;> simp [exitAt, exitDone]

theorem microStep_exitAt (s : State) (st : ExitStage) : microStep (exitAt s st) = .next (exitAt s st.next) := by
  cases st with
  | irq => exact microStep_xIrq rfl
  | link =>
    rw [microStep_xLink rfl]
    simp [exitAt, ExitStage.next]
  | handoff =>
    rw [microStep_xHandoff rfl]
    simp [exitAt, ExitStage.next, enterLoaderHalt, exitDone]
  | loader => exact microStep_hLoader rfl

/-! ### Under every quiet schedule, and in three turns of the block -/

theorem quietStages_exitAt {s : State} (hspi : s.spiBusy = false) (htx : s.txBusy = false) :
    QuietStages (exitAt s) (fun _ => True) ExitStage.after := by
  intro st m rest _ hm
  refine ⟨trivial, ?_⟩
  rw [exitAt_withSched, exitAt_withSched]
  cases m with
  | block => exact microStep_exitAt _ st
  | serialDone => exact congrArg _ (serialDone_idle (by cases st <;> exact hspi))
  | batchDone => exact congrArg _ (batchDone_idle (by cases st <;> exact htx))
  | irq => exact congrArg _ (wake_of_seq_ne (exitAt_seq_ne_iSleep _ st))
  | present | fbWrite | fbSupply | button | platform | foreignDrive | reset => cases hm

/-- A turn of the block, whatever is on the bus. -/
theorem plays_exitAt (s : State) (st : ExitStage) : Plays [.block] (exitAt s st) (exitAt s st.next) :=
  plays_move fun rest => by
    rw [exitAt_withSched, exitAt_withSched]
    exact microStep_exitAt _ st

theorem plays_exithalt (s : State) : Plays [.block, .block, .block] (s.goto .xIrq) (exitDone s s.sched) :=
  (plays_exitAt s .irq).append ((plays_exitAt s .link).append (plays_exitAt s .handoff))

/-- Nothing is on either bus where EXITHALT is accepted. -/
theorem State.bus_idle_of_exithalt {s : State} (hinv : s.inv = true) (hq : s.seq = .ready ∨ s.seq = .wBoot) :
    s.spiBusy = false ∧ s.txBusy = false := by
  obtain hready | hboot := hq
  · obtain ⟨-, hspi, -, htx, -⟩ := State.inv_bus_of_ready hinv hready
    exact ⟨hspi, htx⟩
  · have h := State.bootReady_of_inv hinv hboot
    exact ⟨h.spiBusy, h.txBusy⟩

/-- Settles O40: a run of quiet moves is at a stage of the EXITHALT, three turns of the block lead to the last, and
`H_LOADER` is no ready state and has no micro-step. -/
theorem exithaltReachesTheLoader : Obligations.ExithaltReachesTheLoader := by
  unfold Obligations.ExithaltReachesTheLoader
  refine ⟨fun s s' t k hinv hcalm hexec hrun => ?everySchedule, fun s s' rest hexec => ?threeTurns,
    fun s hq => ⟨microStep_hLoader hq, fun i => exec_elsewhere i (by simp [hq]) (by simp [hq])⟩⟩
  case everySchedule =>
    obtain ⟨hspi, htx⟩ := State.bus_idle_of_exithalt hinv (seq_of_exec_exithalt hexec)
    obtain rfl : s' = s.goto .xIrq := exec_next hexec
    obtain ⟨-, st, -, ht⟩ := (quietStages_exitAt hspi htx).run (st := .irq) trivial hcalm hrun
    cases st with
    | irq => exact .inl (by rw [ht]; rfl)
    | link => exact .inr (.inl (by rw [ht]; rfl))
    | handoff => exact .inr (.inr (.inl (by rw [ht]; rfl)))
    | loader => exact .inr (.inr (.inr ht))
  case threeTurns =>
    rw [exec_next hexec]
    exact plays_exithalt s rest

end Sys2Proof.Machine
end

section
/-! PROOF. The transitions of `phase` (R166): what makes each change of it, said once for every move, and that each of
the table's causes makes its transition. -/

namespace Sys2Proof.Machine

/-! ### The block -/

theorem initBus_phase (s : State) : (initBus s).phase = s.phase := by unfold initBus; split <;> rfl

theorem startBootByte_phase (b : Byte) (s : State) : (startBootByte b s).Ensures (·.phase = s.phase) := by
  unfold startBootByte; split <;> simp

theorem microB5Prog_phase (s : State) : (microB5Prog s).Ensures (·.phase = s.phase) := by
  unfold microB5Prog
  refine ensures_await.mpr fun _ => ?_
  split
  · exact startBootByte_phase _ s
  · exact Micro.ensures_go.mpr rfl

theorem microCEnter_phase (s : State) : (microCEnter s).Ensures (·.phase = s.phase) := by
  unfold microCEnter; split <;> simp

theorem microCSend_phase (s : State) : (microCSend s).Ensures (·.phase = s.phase) := by
  unfold microCSend; split <;> simp

theorem finishCommand_phase (s : State) : (finishCommand s).phase = s.phase := s.enterMode_phase .data

theorem microCRestore_phase (s : State) : (microCRestore s).Ensures (·.phase = s.phase) := by
  unfold microCRestore
  split <;> exact ensures_await.mpr fun _ => Micro.ensures_go.mpr (finishCommand_phase s)

theorem microQFill_phase (s : State) : (microQFill s).Ensures (·.phase = s.phase) := by
  unfold microQFill; split <;> simp

theorem microQClose_phase (s : State) : (microQClose s).Ensures (·.phase = s.phase) := by
  unfold microQClose
  split
  · simp
  · refine ensures_await.mpr fun _ => ?_
    split <;> exact Micro.ensures_go.mpr rfl

/-- All micro-states of R31 but three leave `phase` as it is. -/
theorem micro_phase {s : State} (hsafe : s.seq ≠ .b1Safe) (hpwr : s.seq ≠ .b7Pwr) (hhandoff : s.seq ≠ .xHandoff) :
    (micro s).Ensures (·.phase = s.phase) := by
  unfold micro
  cases hq : s.seq with
  | wBoot | ready | iSleep | hSafe | hLoader => exact Micro.ensures_wait
  | b1Pins | b3RstLo | b3Hold | b3RstHi | b3Settle | b4Cs | xIrq | xLink => exact Micro.ensures_go.mpr rfl
  | b1Safe => exact absurd hq hsafe
  | b2Bus => exact Micro.ensures_go.mpr (initBus_phase s)
  | b5Cmd => exact Micro.ensures_go.mpr (s.enterMode_phase .command)
  | b5Prog => exact microB5Prog_phase s
  | b6Data => exact Micro.ensures_go.mpr (s.enterMode_phase .data)
  | b7Pwr => exact absurd hq hpwr
  | cEnter => exact microCEnter_phase s
  | cSend => exact microCSend_phase s
  | cRestore => exact microCRestore_phase s
  | pFetch => simp [microPFetch]
  | pSend => simp [microPSend]
  | pDrain => simp [microPDrain, finishPaint]
  | qOpen => simp [microQOpen]
  | qFill => exact microQFill_phase s
  | qClose => exact microQClose_phase s
  | xHandoff => exact absurd hq hhandoff

/-! ### The causes of the table -/

/-- What makes `phase` become the given one in the move `m` made in a state: a row of R166's table, or a reset. -/
inductive PhaseCause (s : State) (m : Move) : Phase → Prop
  | booted (hq : s.seq = .b7Pwr) : PhaseCause s m .running
  | buttonHeld (hq : s.seq = .b1Safe) (hheld : s.btnConfirm = true) : PhaseCause s m .safeHalt
  | handoff (hq : s.seq = .xHandoff) : PhaseCause s m .loaderHalt
  | idle (hq : s.seq = .ready) (hm : m = .present (encode .idle)) : PhaseCause s m .idle
  | woken (hq : s.seq = .iSleep) (hen : s.irqEn = true) (hm : m = .irq) : PhaseCause s m .running
  | reset (p : Platform) (hm : m = .reset p) : PhaseCause s m .boot

theorem microStep_phase {s t : State} (m : Move) (h : microStep s = .next t) :
    t.phase = s.phase ∨ PhaseCause s m t.phase := by
  by_cases hsafe : s.seq = .b1Safe
  · cases hheld : s.btnConfirm with
    | true =>
      obtain ⟨⟩ := (microStep_b1Safe_held hsafe hheld).symm.trans h
      exact .inr (.buttonHeld hsafe hheld)
    | false =>
      obtain ⟨⟩ := (microStep_b1Safe hsafe hheld).symm.trans h
      exact .inl rfl
  by_cases hpwr : s.seq = .b7Pwr
  · obtain ⟨⟩ := (microStep_b7Pwr hpwr).symm.trans h
    exact .inr (.booted hpwr)
  by_cases hhandoff : s.seq = .xHandoff
  · obtain ⟨⟩ := (microStep_xHandoff hhandoff).symm.trans h
    exact .inr (.handoff hhandoff)
  obtain hgo | ⟨-, rfl⟩ := Micro.turn_eq_next.mp h
  · exact .inl (micro_phase hsafe hpwr hhandoff t hgo)
  · exact .inl rfl

/-- Of the operations only IDLE changes `phase`. -/
theorem exec_phase {i : Instr} {s t : State} (h : exec i s = .next t) :
    t.phase = s.phase ∨ PhaseCause s (.present (encode i)) t.phase := by
  obtain rfl := exec_next h
  cases i with
  | idle =>
    obtain ⟨hq, -⟩ := acceptReady_eq_next.mp h
    exact .inr (.idle hq rfl)
  | entercmd | enterdata => exact .inl (s.enterMode_phase _)
  | boot | paint | setpwr | setinv | setallon | setfliph | setflipv | setind | exithalt | sendcmd => exact .inl rfl

theorem takeMove_phase {m : Move} {s t : State} (h : takeMove exec m s = .next t) :
    t.phase = s.phase ∨ PhaseCause s m t.phase := by
  cases m with
  | block => exact microStep_phase .block h
  | present w =>
    obtain ⟨i, hdecode, hexec⟩ := presentWord_eq_next.mp h
    obtain ⟨rfl, -⟩ := eq_encode_of_decodeFor hdecode
    exact exec_phase hexec
  | irq =>
    cases h
    obtain ⟨hq, hen, hw⟩ | ⟨-, hw⟩ := wake_cases s <;> rw [hw]
    · exact .inr (.woken hq hen rfl)
    · exact .inl rfl
  | reset p =>
    cases h
    exact .inr (.reset p rfl)
  | fbWrite i v =>
    obtain ⟨-, -, rfl⟩ := hostFbWrite_eq_next.mp h
    exact .inl rfl
  | fbSupply bs =>
    obtain ⟨-, rfl⟩ := hostFbSupply_eq_next.mp h
    exact .inl rfl
  | platform i l =>
    obtain ⟨-, rfl⟩ := platformSet_eq_next.mp h
    exact .inl rfl
  | serialDone =>
    cases h
    obtain ⟨-, hd⟩ | ⟨-, hd⟩ := serialDone_cases s <;> rw [hd] <;> exact .inl rfl
  | batchDone =>
    cases h
    obtain ⟨-, hd⟩ | ⟨-, hd⟩ := batchDone_cases s <;> rw [hd] <;> exact .inl rfl
  | button held => cases h; exact .inl rfl
  | foreignDrive => cases h

/-- A step is a move: the next one scheduled, or a turn of the block where none is. -/
theorem step_move {s t : State} (h : step s = .next t) :
    ∃ m rest, (m = .block ∨ s.sched = m :: rest) ∧ takeMove exec m { s with sched := rest } = .next t := by
  obtain ⟨-, hblock⟩ | ⟨m, rest, hsched, htake⟩ := step_cases h
  · exact ⟨.block, s.sched, .inl rfl, hblock⟩
  · exact ⟨m, rest, .inr hsched, htake⟩

theorem State.phase_of_booting {s : State} (hphase : phaseOk s = true) (hq : s.seq = .b1Safe ∨ s.seq = .b7Pwr) :
    s.phase = .boot := by
  obtain hq | hq := hq <;> simpa [phaseOk, hq, MicroState.inBoot] using hphase

theorem State.phase_of_iSleep {s : State} (hphase : phaseOk s = true) (hq : s.seq = .iSleep) : s.phase = .idle := by
  simpa [phaseOk, hq] using hphase

/-- An X_* state is reached from either ready state, and keeps its phase (R31). -/
theorem State.phase_of_xHandoff {s : State} (hphase : phaseOk s = true) (hq : s.seq = .xHandoff) :
    s.phase = .running ∨ s.phase = .boot := by
  cases hbus : s.busReady <;> simp_all [phaseOk]

/-- Settles O52: a step that changes `phase` has one of the causes of `PhaseCause`, in a micro-state that gives the
phase it leaves; conversely each cause is followed to the state it leads to. -/
theorem phaseTransitionsAreTheTable : Obligations.PhaseTransitionsAreTheTable := by
  unfold Obligations.PhaseTransitionsAreTheTable
  refine ⟨?noOther, fun s hq => ⟨_, microStep_b7Pwr hq, rfl⟩,
    fun s hq hheld => ⟨_, microStep_b1Safe_held hq hheld, rfl⟩, fun s hq => ⟨_, microStep_xHandoff hq, rfl⟩,
    fun s hq => ⟨_, exec_idle hq, rfl⟩, ?woken,
    fun s p rest hsched => ⟨_, step_cons hsched, rfl⟩, fun s b hq => ⟨_, exec_modeOp .pwr b hq, rfl⟩⟩
  case noOther =>
    intro s t hinv hstep hne
    obtain ⟨-, -, hphase, -⟩ := State.inv_iff.mp hinv
    obtain ⟨m, rest, hm, htake⟩ := step_move hstep
    have hcause : PhaseCause { s with sched := rest } m t.phase := (takeMove_phase htake).resolve_left hne
    have hsched : m ≠ .block → s.sched = m :: rest := hm.resolve_left
    generalize t.phase = q at hcause ⊢
    cases hcause with
    | booted hq => exact .inl ⟨State.phase_of_booting hphase (.inr hq), rfl, hq⟩
    | buttonHeld hq hheld => exact .inr (.inl ⟨State.phase_of_booting hphase (.inl hq), rfl, hq, hheld⟩)
    | handoff hq =>
      obtain hleft | hleft := State.phase_of_xHandoff hphase hq
      · exact .inr (.inr (.inr (.inr (.inr (.inl ⟨hleft, rfl, hq⟩)))))
      · exact .inr (.inr (.inl ⟨hleft, rfl, hq⟩))
    | idle hq hword =>
      subst hword
      exact .inr (.inr (.inr (.inl ⟨State.phase_of_ready hphase hq, rfl, hq, rest, hsched nofun⟩)))
    | woken hq hen hirq =>
      subst hirq
      exact .inr (.inr (.inr (.inr (.inl ⟨State.phase_of_iSleep hphase hq, rfl, hq, hen, rest, hsched nofun⟩))))
    | reset p hreset =>
      subst hreset
      exact .inr (.inr (.inr (.inr (.inr (.inr ⟨rfl, p, rest, hsched nofun⟩)))))
  case woken =>
    intro s rest hsched hq hen
    exact ⟨_, step_cons hsched, by simp [wake, hq, hen]⟩

end Sys2Proof.Machine
end

section
/-! PROOF. What the machine does not answer, and what it does not see (R174, R175, R177): a word where the block is not
ready, a foreign driver, an interrupt outside a sleep, and every move in a terminal state. -/

namespace Sys2Proof.Machine

/-! ### Requests from outside -/

/-- A word is refused outside the two ready states: as reserved, or because its operation is (R175). -/
theorem presentWord_unready {s : State} (w : OpWord) (h : s.isReady = false) :
    refuses (presentWord exec w s) = true := by
  obtain ⟨hboot, hready⟩ : s.seq ≠ .wBoot ∧ s.seq ≠ .ready := by simpa [State.isReady] using h
  unfold presentWord
  split
  · exact exec_elsewhere _ hready hboot
  · rfl

/-- Settles O56: the move taken off the schedule is answered by `presentWord`, or is the foreign driver's. -/
theorem unreadyWordsAndForeignDriversAreRefused : Obligations.UnreadyWordsAndForeignDriversAreRefused := by
  unfold Obligations.UnreadyWordsAndForeignDriversAreRefused
  refine ⟨fun s w rest hsched hunready => ?_, fun s rest hsched => step_cons hsched⟩
  rw [step_present hsched]
  exact presentWord_unready w hunready

/-- Settles O60: the interrupt is taken off the schedule, and wakes nothing outside `I_SLEEP`. -/
theorem interruptsOutsideSleepAreInvisible : Obligations.InterruptsOutsideSleepAreInvisible := by
  unfold Obligations.InterruptsOutsideSleepAreInvisible
  intro s rest hsched hq
  rw [step_cons hsched]
  exact congrArg Host.Outcome.next (wake_of_seq_ne hq)

/-! ### The terminal states (R174) -/

theorem State.halted_iff {s : State} : s.halted = true ↔ s.seq = .hSafe ∨ s.seq = .hLoader := by
  simp [State.halted]

theorem microStep_halted {s : State} (h : s.halted = true) : microStep s = .next s := by
  obtain hq | hq := State.halted_iff.mp h
  · exact microStep_hSafe hq
  · exact microStep_hLoader hq

theorem busQuiet_iff {s : State} :
    busQuiet s = true ↔ s.spiBusy = false ∧ s.txOpen = false ∧ s.txBusy = false ∧ s.txBuf = [] := by
  simp [busQuiet, and_assoc]

/-- Nothing is on either bus in a terminal state. -/
theorem busOk_halted {s : State} (hbus : busOk s = true) (h : s.halted = true) :
    s.spiBusy = false ∧ s.txBusy = false := by
  have hquiet : busQuiet s = true := by
    obtain hq | hq := State.halted_iff.mp h <;> simp only [busOk, hq, Bool.and_eq_true] at hbus
    · obtain ⟨-, hquiet⟩ := hbus
      exact hquiet
    · exact hbus
  obtain ⟨hspi, -, htx, -⟩ := busQuiet_iff.mp hquiet
  exact ⟨hspi, htx⟩

theorem State.halted_seq_ne {s : State} (h : s.halted = true) {q : MicroState} (hsafe : q ≠ .hSafe)
    (hloader : q ≠ .hLoader) : s.seq ≠ q := by
  obtain hq | hq := State.halted_iff.mp h
  · exact fun hs => hsafe (hs.symm.trans hq)
  · exact fun hs => hloader (hs.symm.trans hq)

/-- No quiet move changes anything in a terminal state. -/
theorem takeMove_halted {m : Move} {s : State} (hbus : busOk s = true) (h : s.halted = true) (hm : m.quiet = true) :
    takeMove exec m s = .next s := by
  obtain ⟨hspi, htx⟩ := busOk_halted hbus h
  cases m with
  | block => exact microStep_halted h
  | serialDone => exact congrArg _ (serialDone_idle hspi)
  | batchDone => exact congrArg _ (batchDone_idle htx)
  | irq => exact congrArg _ (wake_of_seq_ne (State.halted_seq_ne h nofun nofun))
  | present | fbWrite | fbSupply | button | platform | foreignDrive | reset => cases hm

/-- Under quiet moves a terminal state is its own one stage. -/
theorem quietStages_halted {s : State} (hbus : busOk s = true) (h : s.halted = true) :
    QuietStages (fun _ : Unit => s) (fun _ => True) (fun _ _ => ()) :=
  fun _ _ rest _ hm => ⟨trivial, takeMove_halted (s := { s with sched := rest }) hbus h hm⟩

/-- Settles O41: a terminal state is the one stage of every run of quiet moves, and is no ready state. -/
theorem terminalStatesAreTerminal : Obligations.TerminalStatesAreTerminal := by
  unfold Obligations.TerminalStatesAreTerminal
  refine fun s hinv h => ⟨fun t k hcalm hrun => ?_, fun i => ?_⟩
  · obtain ⟨-, -, -, hbus, -⟩ := State.inv_iff.mp hinv
    obtain ⟨-, _, -, ht⟩ := (quietStages_halted hbus h).run (st := ()) trivial hcalm hrun
    exact ht
  · exact exec_elsewhere i (State.halted_seq_ne h nofun nofun) (State.halted_seq_ne h nofun nofun)

end Sys2Proof.Machine
end

section
/-! PROOF. A stalled block (R173): a turn of the block in a waiting micro-state is a hold, and so is any number of
them. -/

namespace Sys2Proof.Machine

theorem microStep_qOpen_busy {s : State} (hq : s.seq = .qOpen) (hbusy : s.txBusy = true) : microStep s = .next s := by
  simp [microStep, micro, hq, microQOpen, hbusy]

theorem bootBusFree_serial {s : State} (ht : s.cfg.transport = .serial) : bootBusFree s = !s.spiBusy := by
  simp [bootBusFree, ht]

theorem bootBusFree_batched {s : State} (ht : s.cfg.transport = .batched) : bootBusFree s = !s.txBusy := by
  simp [bootBusFree, ht]

/-- In each waiting micro-state of R173 the block holds. -/
theorem microStep_waiting {s : State} (h : s.waiting = true) : microStep s = .next s := by
  unfold State.waiting at h
  split at h
  next hq ht => exact microStep_b5Prog_busy hq (by rw [bootBusFree_serial ht, h]; rfl)
  next hq ht => exact microStep_cRestore_serial_busy hq ht h
  next hq ht => exact microStep_pSend_busy hq h
  next hq ht => exact microStep_pDrain_busy hq h
  next hq ht => exact microStep_b5Prog_busy hq (by rw [bootBusFree_batched ht, h]; rfl)
  next hq ht => exact microStep_cRestore_batched_busy hq ht h
  next hq ht => exact microStep_qOpen_busy hq h
  next hq ht =>
    obtain ⟨hbusy, hclosed⟩ : s.txBusy = true ∧ s.txOpen = false := by simpa using h
    exact microStep_qClose_busy hq hclosed hbusy
  next hq => exact microStep_iSleep hq
  next => cases h

/-- A turn of a waiting block takes itself off the schedule, if it is on it, and does nothing else. -/
theorem step_waiting {s : State} (h : s.waiting = true) (hsched : s.sched.all (· == .block) = true) :
    step s = .next { s with sched := s.sched.drop 1 } := by
  cases hs : s.sched with
  | nil =>
    rw [step_nil hs, microStep_waiting h, List.drop_nil, ← hs]
  | cons m rest =>
    obtain ⟨rfl, -⟩ : m = .block ∧ ∀ m' ∈ rest, m' = .block := by simpa [hs] using hsched
    rw [step_cons hs]
    exact microStep_waiting (s := { s with sched := rest }) h

theorem run_waiting {s : State} (n : Nat) (h : s.waiting = true) (hsched : s.sched.all (· == .block) = true) :
    run n s = .next { s with sched := s.sched.drop n } := by
  induction n generalizing s with
  | zero => rfl
  | succ n ih =>
    have hrest : (s.sched.drop 1).all (· == .block) = true :=
      List.all_eq_true.mpr fun m hm => List.all_eq_true.mp hsched m (List.mem_of_mem_drop hm)
    rw [run_succ (step_waiting h hsched), ih (s := { s with sched := s.sched.drop 1 }) h hrest, List.drop_drop,
      Nat.add_comm]

/-- Settles O47: every turn of the block is the hold of `microStep_waiting`; the invariant is not needed. -/
theorem stalledBlockStaysStuck : Obligations.StalledBlockStaysStuck := by
  unfold Obligations.StalledBlockStaysStuck
  exact fun s n _ => run_waiting n

end Sys2Proof.Machine
end

section
/-! PROOF. The block's own micro-step is never refused under the invariant (R170, R172): in each micro-state that uses
the bus or reads FB the invariant gives what the primitive there requires. -/

namespace Sys2Proof.Machine

/-! ### What the configuration gives -/

/-- The constraints on the batched parameters (R12). -/
theorem cfg_batched {c : Cfg} (h : c.wf = true) (ht : c.transport = .batched) :
    c.chunkSize ∣ c.frameLen ∧ c.chunkSize < c.txbufCap := by
  simp only [Cfg.wf, Bool.and_eq_true, and_assoc] at h
  obtain ⟨-, -, -, -, -, hbatch, -⟩ := h
  simp only [Cfg.batchOk, ht, bne_self_eq_false, Bool.false_or, Bool.and_eq_true, decide_eq_true_eq,
    and_assoc] at hbatch
  obtain ⟨-, hmod, hroom, -⟩ := hbatch
  exact ⟨Nat.dvd_of_mod_eq_zero hmod, hroom⟩

/-- A chunk that begins within a frame of whole chunks ends within it. -/
theorem chunk_end_le {n size start : Nat} (hn : size ∣ n) (hmod : start % size = 0) (hlt : start < n) :
    start + size ≤ n := by
  obtain ⟨c, rfl⟩ := Nat.dvd_of_mod_eq_zero hmod
  obtain ⟨d, rfl⟩ := hn
  have hcd : c < d := Nat.lt_of_mul_lt_mul_left hlt
  calc size * c + size
    _ = size * (c + 1) := (Nat.mul_succ size c).symm
    _ ≤ size * d := Nat.mul_le_mul_left size hcd

/-! ### The boot program and the commands -/

theorem mayCarryCommand_closed {s : State} {b : Option Byte} (h : mayCarryCommand s b = true) : s.txOpen = false := by
  unfold mayCarryCommand at h
  split at h <;> simp only [Bool.and_eq_true, Bool.not_eq_true', and_assoc] at h
  · obtain ⟨hopen, -⟩ := h
    exact hopen
  · obtain ⟨-, hopen, -⟩ := h
    exact hopen

theorem microStep_b5Prog_next {s : State} (hwf : s.cfg.wf = true) (hbus : busOk s = true) (hq : s.seq = .b5Prog) :
    ∃ t, microStep s = .next t := by
  simp only [busOk, hq, Bool.and_eq_true, and_assoc] at hbus
  obtain ⟨hready, -, hcarry⟩ := hbus
  cases hfree : bootBusFree s with
  | false => exact ⟨_, microStep_b5Prog_busy hq hfree⟩
  | true =>
    cases hb : bootRom s.cfg s.bpIdx with
    | none => exact ⟨_, microStep_b5Prog_end hq hfree hb⟩
    | some b =>
      cases ht : s.cfg.transport with
      | serial =>
        have hidle : s.spiBusy = false := by simpa [bootBusFree_serial ht] using hfree
        exact ⟨_, microStep_b5Prog_serial hq ht hready hidle hb⟩
      | batched =>
        have hidle : s.txBusy = false := by simpa [bootBusFree_batched ht] using hfree
        have hopen := mayCarryCommand_closed hcarry
        exact ⟨_, microStep_b5Prog_batched hq ht hready hopen hidle (cfg_txbufCap hwf ht) hb⟩

theorem microStep_cEnter_next {s : State} (hwf : s.cfg.wf = true) (hbus : busOk s = true) (hq : s.seq = .cEnter) :
    ∃ t, microStep s = .next t := by
  simp only [busOk, hq, Bool.and_eq_true, busQuiet_iff] at hbus
  obtain ⟨hready, -, hopen, hidle, -⟩ := hbus
  cases ht : s.cfg.transport with
  | serial => exact ⟨_, microStep_cEnter_serial hq ht⟩
  | batched => exact ⟨_, microStep_cEnter_batched hq ht hready hopen hidle (cfg_txbufCap hwf ht)⟩

theorem microStep_cSend_next {s : State} (hbus : busOk s = true) (hq : s.seq = .cSend) :
    ∃ t, microStep s = .next t := by
  cases ht : s.cfg.transport with
  | serial =>
    simp only [busOk, hq, ht, Bool.and_eq_true, busQuiet_iff] at hbus
    obtain ⟨hready, hidle, -⟩ := hbus
    exact ⟨_, microStep_cSend_serial hq ht hready hidle⟩
  | batched =>
    simp only [busOk, hq, ht, Bool.and_eq_true, and_assoc] at hbus
    obtain ⟨-, -, hopen, -⟩ := hbus
    exact ⟨_, microStep_cSend_batched hq ht hopen⟩

/-- `C_RESTORE` uses no primitive. -/
theorem microStep_cRestore_next {s : State} (hq : s.seq = .cRestore) : ∃ t, microStep s = .next t := by
  cases ht : s.cfg.transport with
  | serial =>
    cases hbusy : s.spiBusy with
    | true => exact ⟨_, microStep_cRestore_serial_busy hq ht hbusy⟩
    | false => exact ⟨_, microStep_cRestore_serial hq ht hbusy⟩
  | batched =>
    cases hbusy : s.txBusy with
    | true => exact ⟨_, microStep_cRestore_batched_busy hq ht hbusy⟩
    | false => exact ⟨_, microStep_cRestore_batched hq ht hbusy⟩

/-! ### PAINT on SERIAL -/

theorem microStep_pFetch_next {s : State} (hbus : busOk s = true) (hq : s.seq = .pFetch) :
    ∃ t, microStep s = .next t := by
  simp only [busOk, hq, Bool.and_eq_true, decide_eq_true_eq, and_assoc] at hbus
  obtain ⟨-, -, hlen, hn, -⟩ := hbus
  exact ⟨_, microStep_pFetch hq hn (Nat.lt_of_lt_of_le hn hlen)⟩

theorem microStep_pSend_next {s : State} (hbus : busOk s = true) (hq : s.seq = .pSend) :
    ∃ t, microStep s = .next t := by
  simp only [busOk, hq, Bool.and_eq_true, and_assoc] at hbus
  obtain ⟨hready, -⟩ := hbus
  cases hbusy : s.spiBusy with
  | true => exact ⟨_, microStep_pSend_busy hq hbusy⟩
  | false => exact ⟨_, microStep_pSend hq hready hbusy⟩

/-- `P_DRAIN` uses no primitive. -/
theorem microStep_pDrain_next {s : State} (hq : s.seq = .pDrain) : ∃ t, microStep s = .next t := by
  cases hbusy : s.spiBusy with
  | true => exact ⟨_, microStep_pDrain_busy hq hbusy⟩
  | false => exact ⟨_, microStep_pDrain hq hbusy⟩

/-! ### PAINT on BATCHED -/

theorem microStep_qOpen_next {s : State} (hwf : s.cfg.wf = true) (hbus : busOk s = true) (hq : s.seq = .qOpen) :
    ∃ t, microStep s = .next t := by
  simp only [busOk, hq, Bool.and_eq_true, decide_eq_true_eq, busQuiet_iff, and_assoc] at hbus
  obtain ⟨hready, ht, -, -, -, -, hopen, hidle, -⟩ := hbus
  have hcap := cfg_txbufCap hwf ht
  exact ⟨_, microStep_qOpen hq hready hopen hidle (by omega)⟩

theorem length_chunkSoFar (s : State) : (chunkSoFar s).length = s.ckIdx + 1 := by
  simp [chunkSoFar, dataBatch, length_frameBytes]

/-- `Q_FILL`: while the chunk is not full the frame has another byte and the buffer has room for it (R12, R101). -/
theorem microStep_qFill_next {s : State} (hwf : s.cfg.wf = true) (hbus : busOk s = true) (hq : s.seq = .qFill) :
    ∃ t, microStep s = .next t := by
  by_cases hk : s.ckIdx < s.cfg.chunkSize
  · simp only [busOk, hq, Bool.and_eq_true, decide_eq_true_eq, and_assoc] at hbus
    obtain ⟨-, ht, hlen, -, hle, hstart, hmod, -, hopen, -, hbuf⟩ := hbus
    obtain ⟨hchunks, hcap⟩ := cfg_batched hwf ht
    have hend := chunk_end_le hchunks hmod hstart
    have hn : s.ftIdx < s.cfg.frameLen := by omega
    have hroom : s.txBuf.length < s.cfg.txbufCap := by
      rw [hbuf, length_chunkSoFar]
      omega
    exact ⟨_, microStep_qFill hq hk hn (Nat.lt_of_lt_of_le hn hlen) hopen hroom⟩
  · exact ⟨_, microStep_qFill_full hq hk⟩

/-- `Q_CLOSE` ends the batch where one is open, and uses no primitive afterwards. -/
theorem microStep_qClose_next {s : State} (hq : s.seq = .qClose) : ∃ t, microStep s = .next t := by
  cases hopen : s.txOpen with
  | true => exact ⟨_, microStep_qClose_open hq hopen⟩
  | false =>
    cases hbusy : s.txBusy with
    | true => exact ⟨_, microStep_qClose_busy hq hopen hbusy⟩
    | false =>
      by_cases hn : s.ftIdx < s.cfg.frameLen
      · exact ⟨_, microStep_qClose_more hq hopen hbusy hn⟩
      · exact ⟨_, microStep_qClose_last hq hopen hbusy hn⟩

/-! ### All micro-states -/

theorem microStep_b1Safe_next {s : State} (hq : s.seq = .b1Safe) : ∃ t, microStep s = .next t := by
  cases hheld : s.btnConfirm with
  | true => exact ⟨_, microStep_b1Safe_held hq hheld⟩
  | false => exact ⟨_, microStep_b1Safe hq hheld⟩

/-- A block in `W_BOOT` holds. -/
theorem microStep_wBoot {s : State} (hq : s.seq = .wBoot) : microStep s = .next s := by simp [microStep, micro, hq]

/-- Settles O50: micro-state by micro-state, a micro-step answers a next state. -/
theorem blockNeverRefusesByItself : Obligations.BlockNeverRefusesByItself := by
  unfold Obligations.BlockNeverRefusesByItself
  intro s hinv
  obtain ⟨hwf, -, -, hbus, -⟩ := State.inv_iff.mp hinv
  cases hq : s.seq with
  | wBoot => exact ⟨_, microStep_wBoot hq⟩
  | b1Pins => exact ⟨_, microStep_b1Pins hq⟩
  | b1Safe => exact microStep_b1Safe_next hq
  | b2Bus => exact ⟨_, microStep_b2Bus hq⟩
  | b3RstLo => exact ⟨_, microStep_b3RstLo hq⟩
  | b3Hold => exact ⟨_, microStep_b3Hold hq⟩
  | b3RstHi => exact ⟨_, microStep_b3RstHi hq⟩
  | b3Settle => exact ⟨_, microStep_b3Settle hq⟩
  | b4Cs => exact ⟨_, microStep_b4Cs hq⟩
  | b5Cmd => exact ⟨_, microStep_b5Cmd hq⟩
  | b5Prog => exact microStep_b5Prog_next hwf hbus hq
  | b6Data => exact ⟨_, microStep_b6Data hq⟩
  | b7Pwr => exact ⟨_, microStep_b7Pwr hq⟩
  | ready => exact ⟨_, microStep_ready hq⟩
  | cEnter => exact microStep_cEnter_next hwf hbus hq
  | cSend => exact microStep_cSend_next hbus hq
  | cRestore => exact microStep_cRestore_next hq
  | pFetch => exact microStep_pFetch_next hbus hq
  | pSend => exact microStep_pSend_next hbus hq
  | pDrain => exact microStep_pDrain_next hq
  | qOpen => exact microStep_qOpen_next hwf hbus hq
  | qFill => exact microStep_qFill_next hwf hbus hq
  | qClose => exact microStep_qClose_next hq
  | iSleep => exact ⟨_, microStep_iSleep hq⟩
  | xIrq => exact ⟨_, microStep_xIrq hq⟩
  | xLink => exact ⟨_, microStep_xLink hq⟩
  | xHandoff => exact ⟨_, microStep_xHandoff hq⟩
  | hSafe => exact ⟨_, microStep_hSafe hq⟩
  | hLoader => exact ⟨_, microStep_hLoader hq⟩

end Sys2Proof.Machine
end

section
/-! PROOF. The operations of a block that has not completed BOOT, after a reset and later (R191, R192). -/

namespace Sys2Proof.Machine

/-- Outside READY every operation but BOOT and EXITHALT is refused, in `W_BOOT` too (R175, R192). -/
theorem exec_outsideReady {s : State} {i : Instr} (hready : s.seq ≠ .ready) (hboot : i ≠ .boot)
    (hexit : i ≠ .exithalt) : refuses (exec i s) = true := by
  cases i with
  | boot => exact absurd rfl hboot
  | exithalt => exact absurd rfl hexit
  | setind ch v => exact execSetind_elsewhere ch v hready
  | paint | setpwr | setinv | setallon | setfliph | setflipv | idle | sendcmd | entercmd | enterdata =>
    exact acceptReady_elsewhere _ hready

/-- In READY boot step 7 has completed (R41). -/
theorem State.booted_of_ready {s : State} (hinv : s.inv = true) (hq : s.seq = .ready) : s.booted = true := by
  obtain ⟨hbus, -⟩ := State.inv_bus_of_ready hinv hq
  simp [State.booted, MicroState.inBoot, hq, hbus]

/-- Settles O11: a block that has not completed BOOT is not in READY, wherever an EXITHALT has taken it. -/
theorem operationsBeforeBootAreRefused : Obligations.OperationsBeforeBootAreRefused := by
  unfold Obligations.OperationsBeforeBootAreRefused
  intro s i hinv hbooted hboot hexit
  have hready : s.seq ≠ .ready := fun hq => by simp [State.booted_of_ready hinv hq] at hbooted
  exact exec_outsideReady hready hboot hexit

/-- An operation answered with a next state outside READY is BOOT or EXITHALT. -/
theorem eq_boot_or_exithalt_of_exec {s t : State} {i : Instr} (hready : s.seq ≠ .ready) (h : exec i s = .next t) :
    i = .boot ∨ i = .exithalt := by
  by_cases hboot : i = .boot
  · exact .inl hboot
  by_cases hexit : i = .exithalt
  · exact .inr hexit
  have hrefused := exec_outsideReady hready hboot hexit
  rw [h] at hrefused
  cases hrefused

/-- Settles O10: an accepted word is that of BOOT or of EXITHALT, and `W_BOOT` accepts both. -/
theorem resetAcceptsOnlyBootAndExithalt : Obligations.ResetAcceptsOnlyBootAndExithalt := by
  unfold Obligations.ResetAcceptsOnlyBootAndExithalt
  intro c p w rest
  rw [step_present rfl]
  constructor
  · rintro ⟨t, h⟩
    obtain ⟨i, hdecode, hexec⟩ := presentWord_eq_next.mp h
    obtain ⟨rfl, -⟩ := eq_encode_of_decodeFor hdecode
    obtain rfl | rfl := eq_boot_or_exithalt_of_exec (by nofun) hexec
    · exact .inl rfl
    · exact .inr rfl
  · rintro (rfl | rfl)
    · exact ⟨_, presentWord_eq_next.mpr ⟨.boot, decodeFor_encode c .boot, execBoot_wBoot rfl⟩⟩
    · exact ⟨_, presentWord_eq_next.mpr ⟨.exithalt, decodeFor_encode c .exithalt, exec_exithalt (.inr rfl)⟩⟩

end Sys2Proof.Machine
end

section
/-! PROOF. BOOT runs once (R133, R193): no micro-step, no operation and no move but a reset leads to `W_BOOT`. -/

namespace Sys2Proof.Machine

/-! ### The block -/

theorem microB1Safe_seq_ne_wBoot (s : State) : (microB1Safe s).Ensures (·.seq ≠ .wBoot) := by
  unfold microB1Safe; split <;> exact Micro.ensures_go.mpr nofun

theorem microB5Prog_seq_ne_wBoot {s : State} (hq : s.seq = .b5Prog) : (microB5Prog s).Ensures (·.seq ≠ .wBoot) := by
  unfold microB5Prog
  refine ensures_await.mpr fun _ => ?_
  split
  · exact fun t ht => by simp [startBootByte_seq _ s t ht, hq]
  · exact Micro.ensures_go.mpr nofun

theorem microCEnter_seq_ne_wBoot (s : State) : (microCEnter s).Ensures (·.seq ≠ .wBoot) := by
  unfold microCEnter; split <;> simp

theorem microCSend_seq_ne_wBoot (s : State) : (microCSend s).Ensures (·.seq ≠ .wBoot) := by
  unfold microCSend; split <;> simp

theorem microCRestore_seq_ne_wBoot (s : State) : (microCRestore s).Ensures (·.seq ≠ .wBoot) := by
  unfold microCRestore
  split <;> exact ensures_await.mpr fun _ => Micro.ensures_go.mpr nofun

theorem microPSend_seq_ne_wBoot (s : State) : (microPSend s).Ensures (·.seq ≠ .wBoot) := by
  simp only [microPSend, ensures_await, Micro.ensures_andThen, xferStart_ensures, Micro.ensures_go]
  intros
  split <;> nofun

theorem microQFill_seq_ne_wBoot {s : State} (hq : s.seq = .qFill) : (microQFill s).Ensures (·.seq ≠ .wBoot) := by
  unfold microQFill; split <;> simp [hq]

theorem microQClose_seq_ne_wBoot {s : State} (hq : s.seq = .qClose) : (microQClose s).Ensures (·.seq ≠ .wBoot) := by
  unfold microQClose
  split
  · simp [hq]
  · refine ensures_await.mpr fun _ => ?_
    split <;> exact Micro.ensures_go.mpr nofun

/-- One case for each micro-state of R31. -/
theorem micro_seq_ne_wBoot (s : State) : (micro s).Ensures (·.seq ≠ .wBoot) := by
  unfold micro
  cases hq : s.seq with
  | wBoot | ready | iSleep | hSafe | hLoader => exact Micro.ensures_wait
  | b1Pins | b2Bus | b3RstLo | b3Hold | b3RstHi | b3Settle | b4Cs | b5Cmd | b6Data | b7Pwr | xIrq | xLink | xHandoff =>
    exact Micro.ensures_go.mpr nofun
  | b1Safe => exact microB1Safe_seq_ne_wBoot s
  | b5Prog => exact microB5Prog_seq_ne_wBoot hq
  | cEnter => exact microCEnter_seq_ne_wBoot s
  | cSend => exact microCSend_seq_ne_wBoot s
  | cRestore => exact microCRestore_seq_ne_wBoot s
  | pFetch => simp [microPFetch]
  | pSend => exact microPSend_seq_ne_wBoot s
  | pDrain => exact ensures_await.mpr fun _ => Micro.ensures_go.mpr nofun
  | qOpen => simp [microQOpen]
  | qFill => exact microQFill_seq_ne_wBoot hq
  | qClose => exact microQClose_seq_ne_wBoot hq

/-- A turn of the block is in `W_BOOT` only by holding there. -/
theorem microStep_seq_ne_wBoot {s t : State} (hs : s.seq ≠ .wBoot) (h : microStep s = .next t) : t.seq ≠ .wBoot := by
  obtain hgo | ⟨-, rfl⟩ := Micro.turn_eq_next.mp h
  · exact micro_seq_ne_wBoot s t hgo
  · exact hs

/-! ### The operations and the other agents -/

theorem acceptState_seq_ne_wBoot (i : Instr) (s : State) : (acceptState i s).seq ≠ .wBoot := by
  cases i with
  | paint clear => cases h : s.cfg.transport <;> simp [acceptState, paintStart, h]
  | boot | setpwr | setinv | setallon | setfliph | setflipv | idle | setind | exithalt | sendcmd | entercmd
  | enterdata => exact nofun

/-- Of all moves only a reset leads to `W_BOOT`. -/
theorem takeMove_wBoot {m : Move} {s t : State} (hs : s.seq ≠ .wBoot) (h : takeMove exec m s = .next t)
    (ht : t.seq = .wBoot) : ∃ p, m = .reset p := by
  cases m with
  | reset p => exact ⟨p, rfl⟩
  | block => exact absurd ht (microStep_seq_ne_wBoot hs h)
  | present w =>
    obtain ⟨i, -, hexec⟩ := presentWord_eq_next.mp h
    rw [exec_next hexec] at ht
    exact absurd ht (acceptState_seq_ne_wBoot i s)
  | irq =>
    cases h
    obtain ⟨-, -, hw⟩ | ⟨-, hw⟩ := wake_cases s <;> rw [hw] at ht
    · cases ht
    · exact absurd ht hs
  | fbWrite i v =>
    obtain ⟨-, -, rfl⟩ := hostFbWrite_eq_next.mp h
    exact absurd ht hs
  | fbSupply bs =>
    obtain ⟨-, rfl⟩ := hostFbSupply_eq_next.mp h
    exact absurd ht hs
  | platform i l =>
    obtain ⟨-, rfl⟩ := platformSet_eq_next.mp h
    exact absurd ht hs
  | serialDone =>
    cases h
    obtain ⟨-, hd⟩ | ⟨-, hd⟩ := serialDone_cases s <;> rw [hd] at ht <;> exact absurd ht hs
  | batchDone =>
    cases h
    obtain ⟨-, hd⟩ | ⟨-, hd⟩ := batchDone_cases s <;> rw [hd] at ht <;> exact absurd ht hs
  | button held => cases h; exact absurd ht hs
  | foreignDrive => cases h

theorem execBoot_ready {s : State} (hq : s.seq = .ready) : exec .boot s = .refused .secondBoot := by
  simp [exec, execBoot, hq]

/-- Settles O12: BOOT is refused outside `W_BOOT`, and the one move that leads back there is a reset. -/
theorem bootIsOneShot : Obligations.BootIsOneShot := by
  unfold Obligations.BootIsOneShot
  refine ⟨fun _ => execBoot_ready, fun _ => execBoot_elsewhere, fun s t hstep hs ht => ?_⟩
  obtain ⟨-, hblock⟩ | ⟨m, rest, hsched, hmove⟩ := step_cases hstep
  · exact absurd ht (microStep_seq_ne_wBoot hs hblock)
  · obtain ⟨p, rfl⟩ := takeMove_wBoot (s := { s with sched := rest }) hs hmove ht
    exact ⟨p, rest, hsched⟩

end Sys2Proof.Machine
end

section
/-! PROOF. One turn of the machine (R20, R21, R31), and the values a reset leaves (R47 to R49). -/

namespace Sys2Proof.Machine

theorem decodeFor_of_decode {c : Cfg} {w : OpWord} {i : Instr} (h : decode w = .ok i) (hwf : i.wf c = true) :
    decodeFor c w = .ok i := by
  rw [decode_eq_ok_iff.mp h, decodeFor_encode, if_pos hwf]

theorem presentWord_ok {run : Instr → State → Out} {w : OpWord} {i : Instr} {s : State}
    (h : decodeFor s.cfg w = .ok i) : presentWord run w s = run i s := by
  simp [presentWord, h]

/-- Settles O7: the decoder for the configuration answers the operation too, because it is legal there. -/
theorem stepRunsThePresentedOperation : Obligations.StepRunsThePresentedOperation := by
  unfold Obligations.StepRunsThePresentedOperation
  intro s w i rest hsched hdecode hwf
  rw [step_present hsched, presentWord_ok (s := { s with sched := rest }) (decodeFor_of_decode hdecode hwf)]

theorem serialDone_busy {s : State} (h : s.spiBusy = true) :
    serialDone s = { s with spiBusy := false, trace := s.trace ++ [.serial s.spiDr] } := if_pos h

theorem batchDone_busy {s : State} (h : s.txBusy = true) :
    batchDone s = { s with txBusy := false, txBuf := [], trace := s.trace ++ [.batch s.cfg.periphAddr s.txBuf] } :=
  if_pos h

theorem wake_iSleep {s : State} (hq : s.seq = .iSleep) (hen : s.irqEn = true) :
    wake s = { s with trace := s.trace ++ [.irq, .wake], seq := .ready, phase := .running } := if_pos ⟨hq, hen⟩

/-- Settles O8: each move is taken off the schedule and made, and each is enabled here. -/
theorem stepTakesOneAgentsTurn : Obligations.StepTakesOneAgentsTurn := by
  unfold Obligations.StepTakesOneAgentsTurn
  refine ⟨fun s => step_nil, fun s rest => step_cons, fun s rest hsched hbusy => ?serial,
    fun s rest hsched hbusy => ?batch, fun s rest hsched hq hen => ?irq⟩
  case serial => rw [step_cons hsched, takeMove, serialDone_busy (s := { s with sched := rest }) hbusy]
  case batch => rw [step_cons hsched, takeMove, batchDone_busy (s := { s with sched := rest }) hbusy]
  case irq => rw [step_cons hsched, takeMove, wake_iSleep (s := { s with sched := rest }) hq hen]

/-- Settles O9: `State.resetWith` has each value in its field, and a reset move leads to it. -/
theorem resetLeavesTheStatedValues : Obligations.ResetLeavesTheStatedValues := by
  unfold Obligations.ResetLeavesTheStatedValues
  exact ⟨fun c p => by simp [State.resetWith, Disp.reset], fun s p rest => step_cons⟩

end Sys2Proof.Machine
end

section
/-! PROOF. The ghost display memory after a PAINT (R46, R147): the frame's bytes go in from the origin on, and the
pointer comes round to it. -/

namespace Sys2Proof.Machine

/-- Pixel bytes received from the origin on, no more than there are entries. -/
theorem Disp.foldl_pixel {n : Nat} {d : Disp} (hptr : d.ptr = some 0) (hram : d.ram.length = n) (bs : List Byte)
    (h : bs.length ≤ n) :
    bs.foldl (Disp.pixel n) d =
      { d with ram := bs.map some ++ d.ram.drop bs.length, ptr := some (bs.length % n) } := by
  induction bs using List.reverseRecOn with
  | nil => simp [← hptr]
  | append_singleton bs b ih =>
    rw [List.length_append, List.length_singleton] at h ⊢
    have hk : bs.length % n = bs.length := Nat.mod_eq_of_lt h
    have hset : (d.ram.drop bs.length).set 0 (some b) = some b :: d.ram.drop (bs.length + 1) := by
      rw [List.drop_eq_getElem_cons (by omega), List.set_cons_zero]
    rw [List.foldl_append, ih (by omega), hk]
    simp [Disp.pixel, hset]

/-- A whole frame of pixel bytes. -/
theorem State.dispAfterPaint_frame {s : State} (hvalid : s.disp.valid = true) (hread : s.pixelsRead = true)
    (hptr : s.disp.ptr = some 0) (hram : s.disp.ram.length = s.cfg.frameLen) :
    s.dispAfterPaint = { s.disp with
      ram := (frameBytes s.clr s.fb 0 s.cfg.frameLen).map some, ptr := some 0 } := by
  rw [State.dispAfterPaint, if_pos hvalid, if_pos hread,
    Disp.foldl_pixel hptr hram _ (length_frameBytes ..).le, length_frameBytes, Nat.mod_self, ← hram,
    List.drop_length, List.append_nil]

theorem State.dispAfterPaint_notRead {s : State} (hvalid : s.disp.valid = true) (hread : s.pixelsRead = false) :
    s.dispAfterPaint = s.disp.invalidate := by
  simp [State.dispAfterPaint, hvalid, hread]

/-- A completed PAINT under every quiet schedule, on either transport (R147). -/
theorem paint_disp {s s' t : State} {clear : Bool} {k : Nat} (hinv : s.inv = true) (hcalm : s.calm = true)
    (hq : s.seq = .ready) (hexec : exec (.paint clear) s = .next s') (hrun : run k s' = .next t)
    (hready : t.seq = .ready) : t.disp = { s with clr := clear }.dispAfterPaint := by
  cases ht : s.cfg.transport with
  | serial =>
    obtain ⟨early, hdone⟩ := serialPaintEndStateUnderEverySchedule s s' t clear k hinv hcalm hq ht hexec hrun hready
    rw [hdone]; rfl
  | batched =>
    have hdone := batchedPaintEndStateUnderEverySchedule s s' t clear k hinv hcalm hq ht hexec hrun hready
    rw [hdone]; rfl

/-- In READY a valid ghost has its pointer at the origin. -/
theorem State.disp_of_ready {s : State} (hinv : s.inv = true) (hq : s.seq = .ready) (hvalid : s.disp.valid = true) :
    s.disp.ptr = some 0 ∧ s.disp.ram.length = s.cfg.frameLen := by
  obtain ⟨-, -, -, -, -, -, hdisp, -⟩ := State.inv_iff.mp hinv
  simp only [dispOk, hvalid, State.booted_of_ready hinv hq, if_true, Bool.and_eq_true, decide_eq_true_eq] at hdisp
  exact hdisp.symm

/-- Settles O33: the PAINT's last micro-step makes the ghost update, and the pixel bytes were read as pixels or not
according to the mode in force. -/
theorem paintLeavesTheFrameInTheDisplay : Obligations.PaintLeavesTheFrameInTheDisplay := by
  unfold Obligations.PaintLeavesTheFrameInTheDisplay
  intro s s' t clear k hinv hcalm hq hvalid hexec hrun hready
  obtain ⟨hptr, hram⟩ := State.disp_of_ready hinv hq hvalid
  rw [paint_disp hinv hcalm hq hexec hrun hready]
  refine ⟨fun hmode => ?_, fun ⟨hserial, hmode⟩ => ?_⟩
  · have hread : { s with clr := clear }.pixelsRead = true := by
      cases ht : s.cfg.transport <;> simp_all [State.pixelsRead]
    rw [State.dispAfterPaint_frame (s := { s with clr := clear }) hvalid hread hptr hram]
    simp [frameBytes]
  · have hread : { s with clr := clear }.pixelsRead = false := by simp [State.pixelsRead, hserial, hmode]
    rw [State.dispAfterPaint_notRead (s := { s with clr := clear }) hvalid hread]
    exact ⟨rfl, rfl⟩

end Sys2Proof.Machine
end

section
/-! SUPPORT. The invariant where the machine boots, operates and leaves: the phase and `booted` are fixed there, and
what is left to say is `busOk`, `linesOk` and `cmdSrcOk`. -/

namespace Sys2Proof.Machine

/-! ### What the invariant says beside the bus, the lines and the command -/

/-- The ghost of a display of `n` entries, with its pointer at `ptr` while valid, and with no value afterwards (R45). -/
def Disp.Sound (n : Nat) (ptr : Option Nat) (d : Disp) : Prop :=
  d.ram.length = n ∧ if d.valid then d.ptr = ptr else d = (Disp.reset n).invalidate

/-- The parts of the invariant that most micro-steps leave alone, in a machine with phase `ph` that has completed BOOT
if `b`: the outputs (R38, R39) and the ghost (R45, R46) among them. -/
structure State.Settled (s : State) (ph : Phase) (b : Bool) : Prop where
  cfg : s.cfg.wf = true
  fb : s.fb.wf = true
  phase : s.phase = ph
  channels : s.ind.length = s.cfg.nChannels
  kinds : s.ind.all (indKindOk s.cfg) = true
  gates : s.pwrGated = if b then s.cfg.unusedDomains else []
  ghost : s.disp.Sound s.cfg.frameLen (if b then some 0 else none)

/-- The `phase` a micro-state implies (R31). -/
def State.impliedPhase (s : State) : Phase :=
  match s.seq with
  | .iSleep => .idle
  | .hSafe => .safeHalt
  | .hLoader => .loaderHalt
  | .xIrq | .xLink | .xHandoff => if s.busReady then .running else .boot
  | q => if q.inBoot then .boot else .running

theorem phaseOk_iff {s : State} : phaseOk s = true ↔ s.phase = s.impliedPhase := by
  cases hq : s.seq <;> simp [phaseOk, State.impliedPhase, hq, MicroState.inBoot]

theorem outputsOk_iff {s : State} :
    outputsOk s = true ↔ s.ind.length = s.cfg.nChannels ∧ s.ind.all (indKindOk s.cfg) = true ∧
      s.pwrGated = if s.booted then s.cfg.unusedDomains else [] := by
  simp only [outputsOk, Bool.and_eq_true, decide_eq_true_eq, and_assoc]

theorem dispOk_iff {s : State} :
    dispOk s = true ↔ s.disp.Sound s.cfg.frameLen (if s.booted then some 0 else none) := by
  cases hv : s.disp.valid <;> simp [dispOk, Disp.Sound, hv]

theorem State.inv_iff_settled {s : State} :
    s.inv = true ↔ s.Settled s.impliedPhase s.booted ∧ busOk s = true ∧ linesOk s = true ∧ cmdSrcOk s = true := by
  rw [State.inv_iff, phaseOk_iff, outputsOk_iff, dispOk_iff]
  constructor
  · rintro ⟨hcfg, hfb, hphase, hbus, hlines, ⟨hlen, hkinds, hgates⟩, hghost, hcmd⟩
    exact ⟨⟨hcfg, hfb, hphase, hlen, hkinds, hgates, hghost⟩, hbus, hlines, hcmd⟩
  · rintro ⟨⟨hcfg, hfb, hphase, hlen, hkinds, hgates, hghost⟩, hbus, hlines, hcmd⟩
    exact ⟨hcfg, hfb, hphase, hbus, hlines, ⟨hlen, hkinds, hgates⟩, hghost, hcmd⟩

/-! ### The stretches of R31's table -/

/-- BOOT from its acceptance to step 7, and `W_BOOT` before it. -/
def MicroState.booting (q : MicroState) : Bool := q.inBoot && q != .hSafe

/-- READY, and the operations that go back to it by themselves. -/
def MicroState.operating : MicroState → Bool
  | .ready | .cEnter | .cSend | .cRestore | .pFetch | .pSend | .pDrain | .qOpen | .qFill | .qClose => true
  | _ => false

/-- EXITHALT from its acceptance on, short of the halt. -/
def MicroState.leaving : MicroState → Bool
  | .xIrq | .xLink | .xHandoff => true
  | _ => false

theorem cmdSrcOk_of_seq {s : State} (h : s.commanding = false) : cmdSrcOk s = true := by
  unfold cmdSrcOk; split <;> simp [h]

theorem busReady_of_operating {s : State} (hbus : busOk s = true) (hq : s.seq.operating = true) :
    s.busReady = true := by
  cases h : s.seq <;> simp_all [busOk, MicroState.operating]

theorem State.inv_booting {s : State} (hq : s.seq.booting = true) :
    s.inv = true ↔ s.Settled .boot false ∧ busOk s = true ∧ linesOk s = true := by
  have hphase : s.impliedPhase = .boot := by
    cases h : s.seq <;> simp_all [State.impliedPhase, MicroState.booting, MicroState.inBoot]
  have hbooted : s.booted = false := by simp_all [State.booted, MicroState.booting]
  have hcmd : cmdSrcOk s = true := by
    refine cmdSrcOk_of_seq ?_
    cases h : s.seq <;> simp_all [State.commanding, MicroState.booting, MicroState.inBoot]
  rw [State.inv_iff_settled, hphase, hbooted]
  simp [hcmd]

theorem State.inv_operating {s : State} (hq : s.seq.operating = true) :
    s.inv = true ↔ s.Settled .running true ∧ busOk s = true ∧ linesOk s = true ∧ cmdSrcOk s = true := by
  have hphase : s.impliedPhase = .running := by
    cases h : s.seq <;> simp_all [State.impliedPhase, MicroState.operating, MicroState.inBoot]
  have hbooted (hbus : busOk s = true) : s.booted = true := by
    have hready := busReady_of_operating hbus hq
    cases h : s.seq <;> simp_all [State.booted, MicroState.operating, MicroState.inBoot]
  rw [State.inv_iff_settled, hphase]
  constructor <;> rintro ⟨hsettled, hbus, hrest⟩
  · exact ⟨hbooted hbus ▸ hsettled, hbus, hrest⟩
  · exact ⟨(hbooted hbus).symm ▸ hsettled, hbus, hrest⟩

theorem State.inv_leaving {s : State} (hq : s.seq.leaving = true) :
    s.inv = true ↔ s.Settled (if s.busReady then .running else .boot) s.busReady ∧ busOk s = true ∧
      linesOk s = true := by
  have hphase : s.impliedPhase = if s.busReady then .running else .boot := by
    cases h : s.seq <;> simp_all [State.impliedPhase, MicroState.leaving]
  have hbooted : s.booted = s.busReady := by
    cases h : s.seq <;> simp_all [State.booted, MicroState.leaving, MicroState.inBoot]
  have hcmd : cmdSrcOk s = true := by
    refine cmdSrcOk_of_seq ?_
    cases h : s.seq <;> simp_all [State.commanding, MicroState.leaving]
  rw [State.inv_iff_settled, hphase, hbooted]
  simp [hcmd]

/-! ### The lines in an operating machine -/

theorem linesOperating_none {s : State} {m : Option LinkMode} (h : linesOperating s m = true) :
    linesOperating s none = true := by
  cases hm : s.mode <;> simp_all [linesOperating]

/-- On BATCHED the DC line keeps the level of boot step 1 (R107). -/
theorem linesOperating_lines {s : State} {m : Option LinkMode} (h : linesOperating s m = true) :
    s.rst = .driven .high ∧ s.cs = .driven .asserted ∧
      (s.cfg.transport = .batched → s.dc = .driven s.cfg.pinInit.dc) := by
  cases hm : s.mode <;> cases ht : s.cfg.transport <;> simp_all [linesOperating]

/-- Entering a mode makes the lines those of an operating machine in that mode (R106, R107, R108). -/
theorem linesOperating_enterMode {s : State} (m : LinkMode) (hrst : s.rst = .driven .high)
    (hcs : s.cs = .driven .asserted) (hdc : s.cfg.transport = .batched → s.dc = .driven s.cfg.pinInit.dc) :
    linesOperating (s.enterMode m) (some m) = true := by
  cases ht : s.cfg.transport with
  | serial => simp [linesOperating, s.enterMode_serial m ht, hrst, hcs, ht]
  | batched => simp [linesOperating, s.enterMode_batched m ht, hrst, hcs, ht, hdc ht]

theorem linesOperating_mode_change {s : State} {m : Option LinkMode} (m' : LinkMode)
    (h : linesOperating s m = true) : linesOperating (s.enterMode m') (some m') = true := by
  obtain ⟨hrst, hcs, hdc⟩ := linesOperating_lines h
  exact linesOperating_enterMode m' hrst hcs hdc

/-! ### The ghost (R46) -/

theorem Disp.Sound.invalidate {n : Nat} {p ptr : Option Nat} {d : Disp} (h : d.Sound n p) :
    d.invalidate.Sound n ptr := by
  obtain ⟨rfl, -⟩ := h
  simp [Disp.Sound, Disp.invalidate, Disp.reset, List.map_const']

theorem Disp.Sound.afterBoot {n : Nat} {p : Option Nat} {d : Disp} (h : d.Sound n p) :
    d.afterBoot.Sound n (some 0) := by
  obtain ⟨hram, hghost⟩ := h
  cases hv : d.valid with
  | true => simp [Disp.Sound, Disp.afterBoot, hv, hram]
  | false => simpa [Disp.Sound, Disp.afterBoot, hv, hram] using hghost

theorem Disp.Sound.setFlag {n : Nat} {ptr : Option Nat} {d : Disp} (h : d.Sound n ptr) (hv : d.valid = true)
    (f : DispFlag) (b : Bool) : (d.setFlag f b).Sound n ptr := by
  cases f <;> simpa [Disp.Sound, Disp.setFlag, hv] using h

theorem Disp.Sound.afterCommand {n : Nat} {ptr : Option Nat} {d : Disp} (h : d.Sound n ptr) (src : CmdSource) :
    (d.afterCommand src).Sound n ptr := by
  cases src <;> simp only [Disp.afterCommand] <;> split
  case raw.isTrue => exact h.invalidate
  case flag.isTrue hv => exact h.setFlag hv _ _
  all_goals exact h

theorem Disp.Sound.afterPaint {s : State} (h : s.disp.Sound s.cfg.frameLen (some 0)) :
    s.dispAfterPaint.Sound s.cfg.frameLen (some 0) := by
  obtain ⟨hram, hghost⟩ := h
  cases hvalid : s.disp.valid with
  | false => simpa [State.dispAfterPaint, hvalid, Disp.Sound, hram] using hghost
  | true =>
    cases hread : s.pixelsRead with
    | false =>
      rw [State.dispAfterPaint_notRead hvalid hread]
      exact Disp.Sound.invalidate ⟨hram, hghost⟩
    | true =>
      rw [State.dispAfterPaint_frame hvalid hread (by simpa [hvalid] using hghost) hram]
      simp [Disp.Sound, hvalid, length_frameBytes]

end Sys2Proof.Machine
end

section
/-! PROOF. BOOT keeps the invariant (R120 to R131). -/

namespace Sys2Proof.Machine

/-! ### The indicator file (R38) -/

theorem all_indKindOk_replicate (c : Cfg) (n : Nat) : (List.replicate n (indOff c)).all (indKindOk c) = true := by
  cases hi : c.indicator <;> simp [indKindOk, indOff, IndVal.offOf, hi]

theorem indKindOk_indOn (c : Cfg) : indKindOk c (indOn c) = true := by
  cases hi : c.indicator <;> simp [indKindOk, indOn, hi]

theorem indKindOk_indValue (c : Cfg) (v : Byte) : indKindOk c (indValue c v) = true := by
  cases hi : c.indicator <;> simp [indKindOk, indValue, hi]

/-- Setting one channel to a value of the built variant. -/
theorem all_set_of_all {α : Type} {p : α → Bool} {l : List α} {v : α} (i : Nat) (h : l.all p = true) (hv : p v = true) :
    (l.set i v).all p = true := by
  simp only [List.all_eq_true] at h ⊢
  intro x hx
  obtain hmem | rfl := List.mem_or_eq_of_mem_set hx
  · exact h x hmem
  · exact hv

/-! ### A command byte or its batch in flight (R65, R84) -/

theorem mayCarryCommand_serial {s : State} {b : Option Byte} (ht : s.cfg.transport = .serial) :
    mayCarryCommand s b = true ↔
      s.txOpen = false ∧ s.txBusy = false ∧ s.txBuf = [] ∧ (s.spiBusy = false ∨ some s.spiDr = b) := by
  simp [mayCarryCommand, ht, and_assoc]

theorem mayCarryCommand_batched {s : State} {b : Option Byte} (ht : s.cfg.transport = .batched) :
    mayCarryCommand s b = true ↔
      s.spiBusy = false ∧ s.txOpen = false ∧ if s.txBusy then some s.txBuf = b.map cmdBatch else s.txBuf = [] := by
  cases hbusy : s.txBusy <;> simp [mayCarryCommand, ht, hbusy, and_assoc]

theorem mayCarryCommand_of_busQuiet {s : State} (b : Option Byte) (h : busQuiet s = true) :
    mayCarryCommand s b = true := by
  obtain ⟨hspi, hopen, hbusy, hbuf⟩ := busQuiet_iff.mp h
  cases ht : s.cfg.transport <;> simp [mayCarryCommand, ht, hspi, hopen, hbusy, hbuf]

/-- When what may be in flight is not, nothing is. -/
theorem busQuiet_of_mayCarryCommand {s : State} {b : Option Byte} (h : mayCarryCommand s b = true)
    (hfree : bootBusFree s = true) : busQuiet s = true := by
  cases ht : s.cfg.transport with
  | serial =>
    obtain ⟨hopen, hbusy, hbuf, -⟩ := (mayCarryCommand_serial ht).mp h
    simpa [busQuiet_iff, hopen, hbusy, hbuf, bootBusFree_serial ht] using hfree
  | batched =>
    obtain ⟨hspi, hopen, hbuf⟩ := (mayCarryCommand_batched ht).mp h
    simp_all [busQuiet_iff, bootBusFree_batched ht]

theorem busOk_b5Prog {s : State} (hq : s.seq = .b5Prog) :
    busOk s = true ↔ s.busReady = true ∧ s.bpIdx ≤ s.cfg.bootLen ∧
      mayCarryCommand s (if s.bpIdx = 0 then none else bootRom s.cfg (s.bpIdx - 1)) = true := by
  simp [busOk, hq, and_assoc]

theorem State.inv_b5Prog {s : State} (hq : s.seq = .b5Prog) (hset : s.Settled .boot false)
    (hready : s.busReady = true) (hidx : s.bpIdx ≤ s.cfg.bootLen)
    (hcarry : mayCarryCommand s (if s.bpIdx = 0 then none else bootRom s.cfg (s.bpIdx - 1)) = true)
    (hlines : linesOperating s (some .command) = true) : s.inv = true := by
  refine (State.inv_booting (by rw [hq]; rfl)).mpr ⟨hset, (busOk_b5Prog hq).mpr ⟨hready, hidx, hcarry⟩, ?_⟩
  simpa only [linesOk, hq] using hlines

/-! ### The lines in boot steps 1a to 4 -/

theorem linesBooting_iff {s : State} {r : RstLevel} {c : CsLevel} :
    linesBooting s r c = true ↔
      s.rst = .driven r ∧ s.cs = .driven c ∧ s.dc = .driven s.cfg.pinInit.dc ∧ s.mode = .noValue := by
  simp [linesBooting, and_assoc]

/-! ### Entering a mode -/

theorem State.Settled.enterMode {s : State} {ph : Phase} {b : Bool} (h : s.Settled ph b) (m : LinkMode) :
    (s.enterMode m).Settled ph b := by
  obtain ⟨hcfg, hfb, hphase, hlen, hkinds, hgates, hghost⟩ := h
  constructor <;> simpa only [State.enterMode_cfg, State.enterMode_fb, State.enterMode_phase, State.enterMode_ind,
    State.enterMode_pwrGated, State.enterMode_disp]

theorem busQuiet_enterMode (s : State) (m : LinkMode) : busQuiet (s.enterMode m) = busQuiet s := by simp [busQuiet]

/-! ### The micro-steps B* -/

section Steps

variable {s : State} (h : s.inv = true)
include h

/-- `B1_PINS` gives the lines and the indicators their first values (R121). -/
theorem microB1Pins_inv (hq : s.seq = .b1Pins) : (microB1Pins s).Ensures (·.inv = true) := by
  obtain ⟨hset, hbus, hlines⟩ := (State.inv_booting (by rw [hq]; rfl)).mp h
  simp only [busOk, linesOk, hq] at hbus hlines
  have hmode : s.mode = .noValue := by simp_all [linesUndriven]
  exact Micro.ensures_go.mpr ((State.inv_booting rfl).mpr ⟨{ hset with
    channels := List.length_replicate, kinds := all_indKindOk_replicate _ _ }, hbus,
    linesBooting_iff.mpr ⟨rfl, rfl, rfl, hmode⟩⟩)

/-- `B1_SAFE` goes on, or halts with one indicator lit (R122). -/
theorem microB1Safe_inv (hq : s.seq = .b1Safe) : (microB1Safe s).Ensures (·.inv = true) := by
  obtain ⟨hset, hbus, hlines⟩ := (State.inv_booting (by rw [hq]; rfl)).mp h
  simp only [busOk, linesOk, hq] at hbus hlines
  unfold microB1Safe
  split <;> refine Micro.ensures_go.mpr ?_
  · exact State.inv_iff_settled.mpr ⟨{ hset with
      phase := rfl, channels := List.length_set.trans hset.channels,
      kinds := all_set_of_all _ hset.kinds (indKindOk_indOn _) }, hbus, hlines, cmdSrcOk_of_seq rfl⟩
  · exact (State.inv_booting rfl).mpr ⟨{ hset with }, hbus, hlines⟩

/-- `B2_BUS` makes the bus ready, and leaves it quiet (R123, R95, R99). -/
theorem microB2Bus_inv (hq : s.seq = .b2Bus) : (microB2Bus s).Ensures (·.inv = true) := by
  obtain ⟨hset, hbus, hlines⟩ := (State.inv_booting (by rw [hq]; rfl)).mp h
  simp only [busOk, linesOk, hq, Bool.and_eq_true, busQuiet_iff] at hbus hlines
  unfold microB2Bus initBus
  split <;> refine Micro.ensures_go.mpr ((State.inv_booting rfl).mpr ⟨{ hset with }, ?_, hlines⟩) <;>
    simp [busOk, busQuiet, hbus]

/-- Steps 3 and 4 drive RST and CS, and do nothing else (R124, R125). -/
theorem micro_inv_resetPulse
    (hq : s.seq = .b3RstLo ∨ s.seq = .b3Hold ∨ s.seq = .b3RstHi ∨ s.seq = .b3Settle ∨ s.seq = .b4Cs) :
    (micro s).Ensures (·.inv = true) := by
  obtain ⟨hset, hbus, hlines⟩ := (State.inv_booting (by obtain hq | hq | hq | hq | hq := hq <;> rw [hq] <;> rfl)).mp h
  obtain hq | hq | hq | hq | hq := hq <;> simp only [micro, busOk, linesOk, hq, linesBooting_iff] at hbus hlines ⊢ <;>
    obtain ⟨hrst, hcs, hdc, hmode⟩ := hlines <;>
    refine Micro.ensures_go.mpr ((State.inv_booting rfl).mpr ⟨{ hset with }, hbus, linesBooting_iff.mpr ?_⟩)
  · exact ⟨rfl, hcs, hdc, hmode⟩
  · exact ⟨hrst, hcs, hdc, hmode⟩
  · exact ⟨rfl, hcs, hdc, hmode⟩
  · exact ⟨hrst, hcs, hdc, hmode⟩
  · exact ⟨hrst, rfl, hdc, hmode⟩

/-- `B5_CMD` enters command mode, with no byte of the boot program sent (R126). -/
theorem microB5Cmd_inv (hq : s.seq = .b5Cmd) : (microB5Cmd s).Ensures (·.inv = true) := by
  obtain ⟨hset, hbus, hlines⟩ := (State.inv_booting (by rw [hq]; rfl)).mp h
  simp only [busOk, linesOk, hq, Bool.and_eq_true, linesBooting_iff] at hbus hlines
  obtain ⟨hready, hquiet⟩ := hbus
  obtain ⟨hrst, hcs, hdc, -⟩ := hlines
  have hlines' : linesOperating (s.enterMode .command) (some .command) = true :=
    linesOperating_enterMode .command hrst hcs fun _ => hdc
  have hready' : (s.enterMode .command).busReady = true := by rw [State.enterMode_busReady, hready]
  have hquiet' : busQuiet (s.enterMode .command) = true := by rw [busQuiet_enterMode, hquiet]
  exact Micro.ensures_go.mpr (State.inv_b5Prog rfl { hset.enterMode .command with } hready' (Nat.zero_le _)
    (mayCarryCommand_of_busQuiet _ hquiet') hlines')

/-- The byte of the boot program that `B5_PROG` starts is the one before the index it moves on to (R127). -/
theorem startBootByte_inv {b : Byte} (hq : s.seq = .b5Prog) (hquiet : busQuiet s = true)
    (hb : bootRom s.cfg s.bpIdx = some b) : (startBootByte b s).Ensures (·.inv = true) := by
  obtain ⟨hset, hbus, hlines⟩ := (State.inv_booting (by rw [hq]; rfl)).mp h
  obtain ⟨hready, -, -⟩ := (busOk_b5Prog hq).mp hbus
  obtain ⟨hspi, hopen, hbusy, hbuf⟩ := busQuiet_iff.mp hquiet
  obtain ⟨hlt, -⟩ : ∃ hlt : s.bpIdx < s.cfg.bootLen, _ := List.getElem?_eq_some_iff.mp hb
  simp only [linesOk, hq] at hlines
  unfold startBootByte
  cases ht : s.cfg.transport <;>
    simp only [Micro.ensures_andThen, xferStart_ensures, txBegin_ensures, txWrite_ensures, txEndStart_ensures,
      Micro.ensures_go] <;> intros <;> refine State.inv_b5Prog hq { hset with } hready hlt ?_ hlines
  case serial => exact (mayCarryCommand_serial (by exact ht)).mpr ⟨hopen, hbusy, hbuf, .inr hb.symm⟩
  case batched => exact (mayCarryCommand_batched (by exact ht)).mpr ⟨hspi, rfl, congrArg (Option.map cmdBatch) hb.symm⟩

theorem microB5Prog_inv (hq : s.seq = .b5Prog) : (microB5Prog s).Ensures (·.inv = true) := by
  obtain ⟨hset, hbus, hlines⟩ := (State.inv_booting (by rw [hq]; rfl)).mp h
  obtain ⟨hready, -, hcarry⟩ := (busOk_b5Prog hq).mp hbus
  unfold microB5Prog
  refine ensures_await.mpr fun hfree => ?_
  have hquiet := busQuiet_of_mayCarryCommand hcarry hfree
  split
  next b hb => exact startBootByte_inv h hq hquiet hb
  next =>
    simp only [linesOk, hq] at hlines
    have hbus' : (s.busReady && busQuiet s) = true := by rw [hready, hquiet]; rfl
    exact Micro.ensures_go.mpr ((State.inv_booting rfl).mpr ⟨{ hset with }, hbus', hlines⟩)

/-- `B6_DATA` enters data mode (R128). -/
theorem microB6Data_inv (hq : s.seq = .b6Data) : (microB6Data s).Ensures (·.inv = true) := by
  obtain ⟨hset, hbus, hlines⟩ := (State.inv_booting (by rw [hq]; rfl)).mp h
  simp only [busOk, linesOk, hq] at hbus hlines
  have hbus' : ((s.enterMode .data).busReady && busQuiet (s.enterMode .data)) = true := by
    rw [State.enterMode_busReady, busQuiet_enterMode, hbus]
  exact Micro.ensures_go.mpr ((State.inv_booting rfl).mpr ⟨{ hset.enterMode .data with }, hbus',
    linesOperating_mode_change .data hlines⟩)

/-- `B7_PWR` completes BOOT: the gates and the ghost pointer have their values of an operating machine (R129, R46). -/
theorem microB7Pwr_inv (hq : s.seq = .b7Pwr) : (microB7Pwr s).Ensures (·.inv = true) := by
  obtain ⟨hset, hbus, hlines⟩ := (State.inv_booting (by rw [hq]; rfl)).mp h
  simp only [busOk, linesOk, hq] at hbus hlines
  have hlines' := linesOperating_none hlines
  exact Micro.ensures_go.mpr ((State.inv_operating rfl).mpr ⟨{ hset with
    phase := rfl, gates := rfl, ghost := hset.ghost.afterBoot }, hbus, hlines', cmdSrcOk_of_seq rfl⟩)

end Steps

end Sys2Proof.Machine
end

section
/-! PROOF. The command operations and PAINT keep the invariant from micro-state to micro-state (R109, R143, R145). -/

namespace Sys2Proof.Machine

/-! ### The micro-steps C_* -/

theorem cmdSrcOk_iff {s : State} :
    cmdSrcOk s = true ↔ ∀ f b, s.cmdSrc = .flag f b → s.commanding = true → s.lat = cmdRom s.cfg f b := by
  cases hsrc : s.cmdSrc <;> cases hc : s.commanding <;> simp [cmdSrcOk, hsrc, hc]

theorem State.inv_cRestore {s : State} (hq : s.seq = .cRestore) (hset : s.Settled .running true)
    (hready : s.busReady = true) (hcarry : mayCarryCommand s (some s.lat) = true)
    (hlines : linesOperating s (some .command) = true) (hcmd : cmdSrcOk s = true) : s.inv = true := by
  refine (State.inv_operating (by rw [hq]; rfl)).mpr ⟨hset, ?_, ?_, hcmd⟩
  · simp only [busOk, hq, hready, hcarry, Bool.and_self]
  · simpa only [linesOk, hq] using hlines

section Steps

variable {s : State} (h : s.inv = true)
include h

/-- `C_ENTER` enters command mode, and on BATCHED fills the batch (R109). -/
theorem microCEnter_inv (hq : s.seq = .cEnter) : (microCEnter s).Ensures (·.inv = true) := by
  obtain ⟨hset, hbus, hlines, hcmd⟩ := (State.inv_operating (by rw [hq]; rfl)).mp h
  simp only [busOk, linesOk, hq, Bool.and_eq_true, busQuiet_iff] at hbus hlines
  obtain ⟨hready, hspi, hopen, hbusy, hbuf⟩ := hbus
  have hlines' := linesOperating_mode_change .command hlines
  have hcmd' (f b) (hsrc : s.cmdSrc = .flag f b) : s.lat = cmdRom s.cfg f b :=
    cmdSrcOk_iff.mp hcmd f b hsrc (by simp [State.commanding, hq])
  have hset' := hset.enterMode .command
  unfold microCEnter
  cases ht : s.cfg.transport <;> simp only
  case serial =>
    rw [s.enterMode_serial .command ht] at hlines' hset' ⊢
    refine Micro.ensures_go.mpr ((State.inv_operating rfl).mpr ⟨{ hset' with }, ?_, hlines',
      cmdSrcOk_iff.mpr fun f b hsrc _ => hcmd' f b hsrc⟩)
    simp [busOk, busQuiet, State.goto, ht, hready, hspi, hopen, hbusy, hbuf]
  case batched =>
    rw [s.enterMode_batched .command ht] at hlines' hset' ⊢
    simp only [Micro.ensures_andThen, txBegin_ensures, txWrite_ensures, Micro.ensures_go]
    intros
    refine (State.inv_operating rfl).mpr ⟨{ hset' with }, ?_, hlines',
      cmdSrcOk_iff.mpr fun f b hsrc _ => hcmd' f b hsrc⟩
    simp [busOk, State.goto, ht, hready, hspi, hbusy, cmdBatch]

/-- `C_SEND` puts the command's byte in flight (R109). -/
theorem microCSend_inv (hq : s.seq = .cSend) : (microCSend s).Ensures (·.inv = true) := by
  obtain ⟨hset, hbus, hlines, hcmd⟩ := (State.inv_operating (by rw [hq]; rfl)).mp h
  have hcmd' (f b) (hsrc : s.cmdSrc = .flag f b) : s.lat = cmdRom s.cfg f b :=
    cmdSrcOk_iff.mp hcmd f b hsrc (by simp [State.commanding, hq])
  simp only [linesOk, hq] at hlines
  unfold microCSend
  cases ht : s.cfg.transport <;>
    simp only [busOk, hq, ht, Bool.and_eq_true, busQuiet_iff, Bool.not_eq_true', decide_eq_true_eq,
      and_assoc] at hbus <;>
    simp only [Micro.ensures_andThen, xferStart_ensures, txEndStart_ensures, Micro.ensures_go] <;> intros <;>
    refine State.inv_cRestore rfl { hset with } ?_ ?_ hlines (cmdSrcOk_iff.mpr fun f b hsrc _ => hcmd' f b hsrc)
  case serial.refine_1 | batched.refine_1 => simp [State.goto, hbus]
  case serial.refine_2 => simp [mayCarryCommand, State.goto, ht, hbus]
  case batched.refine_2 => simp [mayCarryCommand, State.goto, ht, hbus]

/-- A completed command leaves data mode, and an update of the ghost (R109, R46). -/
theorem finishCommand_inv (hq : s.seq = .cRestore) (hfree : bootBusFree s = true) : (finishCommand s).inv = true := by
  obtain ⟨hset, hbus, hlines, -⟩ := (State.inv_operating (by rw [hq]; rfl)).mp h
  simp only [busOk, linesOk, hq, Bool.and_eq_true] at hbus hlines
  obtain ⟨hready, hcarry⟩ := hbus
  have hbus' : ((s.enterMode .data).busReady && busQuiet (s.enterMode .data)) = true := by
    rw [State.enterMode_busReady, busQuiet_enterMode, hready, busQuiet_of_mayCarryCommand hcarry hfree, Bool.and_self]
  have hlines' := linesOperating_none (linesOperating_mode_change .data hlines)
  have hghost : (s.disp.afterCommand s.cmdSrc).Sound (s.enterMode .data).cfg.frameLen (some 0) := by
    rw [State.enterMode_cfg]
    exact hset.ghost.afterCommand s.cmdSrc
  exact (State.inv_operating rfl).mpr ⟨{ hset.enterMode .data with ghost := hghost }, hbus', hlines',
    cmdSrcOk_of_seq rfl⟩

theorem microCRestore_inv (hq : s.seq = .cRestore) : (microCRestore s).Ensures (·.inv = true) := by
  unfold microCRestore
  split <;> refine ensures_await.mpr fun hfree => Micro.ensures_go.mpr (finishCommand_inv h hq ?_)
  case h_1 ht => rw [bootBusFree_serial ht, hfree]
  case h_2 ht => rw [bootBusFree_batched ht, hfree]

end Steps

end Sys2Proof.Machine
end

section
/-! PROOF. PAINT keeps the invariant: on SERIAL the bytes in `lat` and in the shifter are those of the frame before
`ft_idx`, and on BATCHED the open batch is the chunk so far (R143, R145). -/

namespace Sys2Proof.Machine

/-- The next frame byte is `d_(ft_idx)`, whether it is read or not; only the trace tells (R140, R143, R144). -/
theorem nextPixel_ensures_frameByte {s : State} {k : Byte → State → Micro} {P : State → Prop}
    (hk : ∀ es, (k (frameByte s.clr s.fb s.ftIdx) { s with trace := es }).Ensures P) : (nextPixel s k).Ensures P := by
  refine nextPixel_ensures.mpr ⟨fun hc => ?_, fun hc => fbRead_ensures.mpr fun _ _ => ?_⟩
  · have hbyte : frameByte s.clr s.fb s.ftIdx = 0x00#8 := if_pos hc
    rw [← hbyte]
    exact hk _
  · have hbyte : frameByte s.clr s.fb s.ftIdx = s.fb.read s.ftIdx := if_neg (ne_true_of_eq_false hc)
    rw [← hbyte]
    exact hk _

/-! ### What `busOk` says at each micro-state of a PAINT -/

theorem mayCarryPixel_iff {s : State} {i : Nat} :
    mayCarryPixel s i = true ↔ s.txOpen = false ∧ s.txBusy = false ∧ s.txBuf = [] ∧
      (s.spiBusy = false ∨ 1 ≤ i ∧ s.spiDr = frameByte s.clr s.fb (i - 1)) := by
  simp [mayCarryPixel, and_assoc]

/-- The requirements of a PAINT on a transport: its bus is ready, and FB is long enough (R72). -/
def State.PaintsOn (s : State) (tr : Transport) : Prop :=
  s.busReady = true ∧ s.cfg.transport = tr ∧ s.cfg.frameLen ≤ s.fbLen

theorem busOk_pFetch {s : State} (hq : s.seq = .pFetch) :
    busOk s = true ↔ s.PaintsOn .serial ∧ s.ftIdx < s.cfg.frameLen ∧ mayCarryPixel s s.ftIdx = true := by
  simp [busOk, hq, State.PaintsOn, and_assoc]

theorem busOk_pSend {s : State} (hq : s.seq = .pSend) :
    busOk s = true ↔ s.PaintsOn .serial ∧ s.ftIdx < s.cfg.frameLen ∧ mayCarryPixel s s.ftIdx = true ∧
      s.lat = frameByte s.clr s.fb s.ftIdx := by
  simp [busOk, hq, State.PaintsOn, and_assoc]

theorem busOk_pDrain {s : State} (hq : s.seq = .pDrain) :
    busOk s = true ↔ s.PaintsOn .serial ∧ s.ftIdx = s.cfg.frameLen ∧ mayCarryPixel s s.ftIdx = true ∧
      s.lat = frameByte s.clr s.fb (s.ftIdx - 1) ∧ s.spiDr = s.lat := by
  simp [busOk, hq, State.PaintsOn, and_assoc]

theorem busOk_qOpen {s : State} (hq : s.seq = .qOpen) :
    busOk s = true ↔ s.PaintsOn .batched ∧ s.ftIdx < s.cfg.frameLen ∧ s.ftIdx % s.cfg.chunkSize = 0 ∧
      busQuiet s = true := by
  simp [busOk, hq, State.PaintsOn, and_assoc]

/-- `ck_idx` bytes of the chunk that begins at `ft_idx - ck_idx` are behind `ft_idx` (R33, R145). -/
def State.InChunk (s : State) : Prop :=
  s.ckIdx ≤ s.ftIdx ∧ s.ftIdx - s.ckIdx < s.cfg.frameLen ∧ (s.ftIdx - s.ckIdx) % s.cfg.chunkSize = 0

theorem busOk_qFill {s : State} (hq : s.seq = .qFill) :
    busOk s = true ↔ s.PaintsOn .batched ∧ s.ckIdx ≤ s.cfg.chunkSize ∧ s.InChunk ∧ s.spiBusy = false ∧
      s.txOpen = true ∧ s.txBusy = false ∧ s.txBuf = chunkSoFar s := by
  simp [busOk, hq, State.PaintsOn, State.InChunk, and_assoc]

theorem busOk_qClose {s : State} (hq : s.seq = .qClose) :
    busOk s = true ↔ s.PaintsOn .batched ∧ s.ckIdx = s.cfg.chunkSize ∧ s.InChunk ∧ s.spiBusy = false ∧
      (s.txOpen = false ∨ s.txBusy = false) ∧
      s.txBuf = if s.txOpen = true ∨ s.txBusy = true then chunkSoFar s else [] := by
  cases ho : s.txOpen <;> cases hb : s.txBusy <;>
    simp [busOk, hq, State.PaintsOn, State.InChunk, and_assoc, ho, hb]

/-- One more byte of the chunk. -/
theorem chunkSoFar_succ {s : State} (hle : s.ckIdx ≤ s.ftIdx) :
    chunkSoFar { s with ftIdx := s.ftIdx + 1, ckIdx := s.ckIdx + 1 } =
      chunkSoFar s ++ [frameByte s.clr s.fb s.ftIdx] := by
  simp [chunkSoFar, dataBatch, frameBytes_succ, Nat.sub_add_cancel hle]

/-- In a PAINT the lines are an operating machine's and no command is in progress: what is left is `busOk`. -/
theorem State.inv_painting {s : State} (hp : s.painting = true) :
    s.inv = true ↔ s.Settled .running true ∧ busOk s = true ∧ linesOperating s none = true := by
  have hop : s.seq.operating = true := by cases hq : s.seq <;> simp_all [State.painting, MicroState.operating]
  have hcmd : s.commanding = false := by cases hq : s.seq <;> simp_all [State.painting, State.commanding]
  have hlines : linesOk s = linesOperating s none := by cases hq : s.seq <;> simp_all [State.painting, linesOk]
  rw [State.inv_operating hop, hlines]
  simp [cmdSrcOk_of_seq hcmd]

/-- A completed PAINT is back in READY, with an update of the ghost (R147, R46). -/
theorem finishPaint_inv {s : State} (h : s.inv = true) (hp : s.painting = true) (hquiet : busQuiet s = true)
    (hready : s.busReady = true) : (finishPaint s).inv = true := by
  obtain ⟨hset, -, hlines⟩ := (State.inv_painting hp).mp h
  have hbus' : (s.busReady && busQuiet s) = true := by rw [hready, hquiet]; rfl
  exact (State.inv_operating rfl).mpr ⟨{ hset with ghost := hset.ghost.afterPaint }, hbus', hlines, cmdSrcOk_of_seq rfl⟩

/-! ### The micro-steps P_* -/

section Steps

variable {s : State} (h : s.inv = true)
include h

/-- `P_FETCH` loads `d_(ft_idx)` into `lat` (R143). -/
theorem microPFetch_inv (hq : s.seq = .pFetch) : (microPFetch s).Ensures (·.inv = true) := by
  obtain ⟨hset, hbus, hlines⟩ := (State.inv_painting (by rw [State.painting, hq])).mp h
  obtain ⟨hon, hlt, hcarry⟩ := (busOk_pFetch hq).mp hbus
  refine nextPixel_ensures_frameByte fun es => Micro.ensures_go.mpr ?_
  exact (State.inv_painting rfl).mpr ⟨{ hset with }, (busOk_pSend rfl).mpr ⟨hon, hlt, hcarry, rfl⟩, hlines⟩

/-- `P_SEND` puts `d_(ft_idx)` in flight; at the end of the frame it is the last byte (R143). -/
theorem microPSend_inv (hq : s.seq = .pSend) : (microPSend s).Ensures (·.inv = true) := by
  obtain ⟨hset, hbus, hlines⟩ := (State.inv_painting (by rw [State.painting, hq])).mp h
  obtain ⟨hon, hlt, hcarry, hlat⟩ := (busOk_pSend hq).mp hbus
  obtain ⟨hopen, hbusy, hbuf, -⟩ := mayCarryPixel_iff.mp hcarry
  simp only [microPSend, ensures_await, Micro.ensures_andThen, xferStart_ensures, Micro.ensures_go]
  intros
  split
  next hmore =>
    exact (State.inv_painting rfl).mpr ⟨{ hset with }, (busOk_pFetch rfl).mpr ⟨hon, hmore,
      mayCarryPixel_iff.mpr ⟨hopen, hbusy, hbuf, .inr ⟨Nat.succ_pos _, hlat⟩⟩⟩, hlines⟩
  next hlast =>
    have hend : s.ftIdx + 1 = s.cfg.frameLen := Nat.le_antisymm hlt (Nat.not_lt.mp hlast)
    exact (State.inv_painting rfl).mpr ⟨{ hset with }, (busOk_pDrain rfl).mpr ⟨hon, hend,
      mayCarryPixel_iff.mpr ⟨hopen, hbusy, hbuf, .inr ⟨Nat.succ_pos _, hlat⟩⟩, hlat, rfl⟩, hlines⟩

/-- `P_DRAIN` waits for the last byte (R143). -/
theorem microPDrain_inv (hq : s.seq = .pDrain) : (microPDrain s).Ensures (·.inv = true) := by
  have hp : s.painting = true := by rw [State.painting, hq]
  obtain ⟨-, hbus, -⟩ := (State.inv_painting hp).mp h
  obtain ⟨⟨hready, -⟩, -, hcarry, -⟩ := (busOk_pDrain hq).mp hbus
  obtain ⟨hopen, hbusy, hbuf, -⟩ := mayCarryPixel_iff.mp hcarry
  refine ensures_await.mpr fun hidle => Micro.ensures_go.mpr (finishPaint_inv h hp ?_ hready)
  exact busQuiet_iff.mpr ⟨by simpa using hidle, hopen, hbusy, hbuf⟩

/-! ### The micro-steps Q_* -/

/-- `Q_OPEN` begins the batch of the chunk at `ft_idx` (R145). -/
theorem microQOpen_inv (hq : s.seq = .qOpen) : (microQOpen s).Ensures (·.inv = true) := by
  obtain ⟨hset, hbus, hlines⟩ := (State.inv_painting (by rw [State.painting, hq])).mp h
  obtain ⟨hon, hlt, hmod, hquiet⟩ := (busOk_qOpen hq).mp hbus
  obtain ⟨hspi, -, hbusy, -⟩ := busQuiet_iff.mp hquiet
  simp only [microQOpen, ensures_await, Micro.ensures_andThen, txBegin_ensures, txWrite_ensures, Micro.ensures_go]
  intros
  exact (State.inv_painting rfl).mpr ⟨{ hset with }, (busOk_qFill rfl).mpr
    ⟨hon, Nat.zero_le _, ⟨Nat.zero_le _, hlt, hmod⟩, hspi, rfl, hbusy, rfl⟩, hlines⟩

/-- `Q_FILL` adds `d_(ft_idx)` to the batch, or finds the chunk full (R145). -/
theorem microQFill_inv (hq : s.seq = .qFill) : (microQFill s).Ensures (·.inv = true) := by
  have hp : s.painting = true := by rw [State.painting, hq]
  obtain ⟨hset, hbus, hlines⟩ := (State.inv_painting hp).mp h
  obtain ⟨hon, hck, ⟨hle, hstart, hmod⟩, hspi, hopen, hbusy, hbuf⟩ := (busOk_qFill hq).mp hbus
  unfold microQFill
  split
  next hroom =>
    refine nextPixel_ensures_frameByte fun es => ?_
    simp only [Micro.ensures_andThen, txWrite_ensures, Micro.ensures_go]
    intros
    have hsub : s.ftIdx + 1 - (s.ckIdx + 1) = s.ftIdx - s.ckIdx := Nat.add_sub_add_right ..
    have hbuf' : s.txBuf ++ [frameByte s.clr s.fb s.ftIdx] =
        chunkSoFar { s with ftIdx := s.ftIdx + 1, ckIdx := s.ckIdx + 1 } := by
      rw [chunkSoFar_succ hle, hbuf]
    exact (State.inv_painting (by exact hp)).mpr ⟨{ hset with }, (busOk_qFill (by exact hq)).mpr ⟨hon, hroom,
      ⟨Nat.succ_le_succ hle, hsub.symm ▸ hstart, hsub.symm ▸ hmod⟩, hspi, hopen, hbusy, hbuf'⟩, hlines⟩
  next hfull =>
    have heq : s.ckIdx = s.cfg.chunkSize := by omega
    exact Micro.ensures_go.mpr ((State.inv_painting rfl).mpr ⟨{ hset with }, (busOk_qClose rfl).mpr
      ⟨hon, heq, ⟨hle, hstart, hmod⟩, hspi, .inr hbusy, hbuf.trans (if_pos (.inl hopen)).symm⟩, hlines⟩)

/-- `Q_CLOSE` sends the batch; once it is flushed, it goes on to the next chunk or completes the PAINT (R145). -/
theorem microQClose_inv (hq : s.seq = .qClose) : (microQClose s).Ensures (·.inv = true) := by
  have hp : s.painting = true := by rw [State.painting, hq]
  obtain ⟨hset, hbus, hlines⟩ := (State.inv_painting hp).mp h
  obtain ⟨hon, hck, ⟨hle, hstart, hmod⟩, hspi, hone, hbuf⟩ := (busOk_qClose hq).mp hbus
  unfold microQClose
  split
  next hopen =>
    rw [if_pos (.inl hopen)] at hbuf
    exact txEndStart_ensures.mpr fun _ => (State.inv_painting (by exact hp)).mpr ⟨{ hset with },
      (busOk_qClose (by exact hq)).mpr ⟨hon, hck, ⟨hle, hstart, hmod⟩, hspi, .inl rfl, hbuf⟩, hlines⟩
  next hopen =>
    refine ensures_await.mpr fun hidle => ?_
    rw [Bool.not_eq_true] at hopen
    rw [Bool.not_eq_true'] at hidle
    have hquiet : busQuiet s = true := busQuiet_iff.mpr ⟨hspi, hopen, hidle, by simpa [hopen, hidle] using hbuf⟩
    split <;> refine Micro.ensures_go.mpr ?_
    next hmore =>
      have hmod' : s.ftIdx % s.cfg.chunkSize = 0 := by
        rw [← hck] at hmod ⊢
        rwa [Nat.mod_eq_sub_mod hle]
      exact (State.inv_painting rfl).mpr ⟨{ hset with }, (busOk_qOpen rfl).mpr ⟨hon, hmore, hmod', hquiet⟩, hlines⟩
    next =>
      obtain ⟨hready, -⟩ := hon
      exact finishPaint_inv h hp hquiet hready

end Steps

end Sys2Proof.Machine
end

section
/-! PROOF. The invariant holds at reset, and every step keeps it (R31 to R39, R45, R46). -/

namespace Sys2Proof.Machine

/-! ### Reset -/

theorem State.resetWith_inv {c : Cfg} (p : Platform) (hwf : c.wf = true) : (State.resetWith c p).inv = true :=
  (State.inv_booting rfl).mpr ⟨{
    cfg := hwf, fb := rfl, phase := rfl, channels := List.length_replicate, kinds := all_indKindOk_replicate c _
    gates := rfl, ghost := ⟨List.length_replicate, rfl⟩ }, rfl, rfl⟩

/-- Settles O48: each part of the invariant is read off the reset state. -/
theorem invariantHoldsAtReset : Obligations.InvariantHoldsAtReset := by
  unfold Obligations.InvariantHoldsAtReset
  exact ⟨fun c p => State.resetWith_inv p, State.resetWith_inv _ (by decide)⟩

/-! ### The block -/

/-- The micro-steps X_* leave the bus and the lines as they are (R163). -/
theorem micro_inv_leaving {s : State} (h : s.inv = true) (hq : s.seq.leaving = true) :
    (micro s).Ensures (·.inv = true) := by
  obtain ⟨hset, hbus, hlines⟩ := (State.inv_leaving hq).mp h
  unfold micro
  cases hseq : s.seq <;> simp only [busOk, linesOk, hseq, MicroState.leaving, Bool.false_eq_true] at hbus hlines hq
  case xIrq | xLink => exact Micro.ensures_go.mpr ((State.inv_leaving rfl).mpr ⟨{ hset with }, hbus, hlines⟩)
  case xHandoff =>
    exact Micro.ensures_go.mpr (State.inv_iff_settled.mpr
      ⟨{ hset with phase := rfl }, hbus, hlines, cmdSrcOk_of_seq rfl⟩)

/-- One case for each micro-state of R31. -/
theorem micro_inv {s : State} (h : s.inv = true) : (micro s).Ensures (·.inv = true) := by
  unfold micro
  cases hq : s.seq with
  | wBoot | ready | iSleep | hSafe | hLoader => exact Micro.ensures_wait
  | b1Pins => exact microB1Pins_inv h hq
  | b1Safe => exact microB1Safe_inv h hq
  | b2Bus => exact microB2Bus_inv h hq
  | b3RstLo | b3Hold | b3RstHi | b3Settle | b4Cs =>
    simpa only [micro, hq] using micro_inv_resetPulse h (by simp only [hq, or_true, true_or])
  | b5Cmd => exact microB5Cmd_inv h hq
  | b5Prog => exact microB5Prog_inv h hq
  | b6Data => exact microB6Data_inv h hq
  | b7Pwr => exact microB7Pwr_inv h hq
  | cEnter => exact microCEnter_inv h hq
  | cSend => exact microCSend_inv h hq
  | cRestore => exact microCRestore_inv h hq
  | pFetch => exact microPFetch_inv h hq
  | pSend => exact microPSend_inv h hq
  | pDrain => exact microPDrain_inv h hq
  | qOpen => exact microQOpen_inv h hq
  | qFill => exact microQFill_inv h hq
  | qClose => exact microQClose_inv h hq
  | xIrq | xLink | xHandoff => simpa only [micro, hq] using micro_inv_leaving h (by rw [hq]; rfl)

theorem microStep_inv {s t : State} (h : s.inv = true) (hstep : microStep s = .next t) : t.inv = true := by
  obtain hgo | ⟨-, rfl⟩ := Micro.turn_eq_next.mp hstep
  · exact micro_inv h t hgo
  · exact h

/-! ### The acceptance of an operation -/

/-- What the invariant says in READY. -/
theorem State.inv_ready {s : State} (h : s.inv = true) (hq : s.seq = .ready) :
    s.Settled .running true ∧ (s.busReady && busQuiet s) = true ∧ linesOperating s none = true := by
  obtain ⟨hset, hbus, hlines, -⟩ := (State.inv_operating (by rw [hq]; rfl)).mp h
  simp only [busOk, linesOk, hq] at hbus hlines
  exact ⟨hset, hbus, hlines⟩

theorem seq_of_execBoot {s t : State} (h : execBoot s = .next t) : s.seq = .wBoot := by
  unfold execBoot at h
  split at h
  · assumption
  · split at h <;> cases h

theorem seq_of_execSetind {ch : BitVec 4} {v : Byte} {s t : State} (h : execSetind ch v s = .next t) :
    s.seq = .ready := by
  unfold execSetind at h
  split at h
  · obtain ⟨hq, -⟩ := acceptReady_eq_next.mp h
    exact hq
  · cases h

section Acceptance

variable {s : State} (h : s.inv = true) (hq : s.seq = .ready)
include h hq

theorem startPaint_inv (clear : Bool) (hlen : s.cfg.frameLen ≤ s.fbLen) :
    { s with clr := clear, ftIdx := 0, seq := paintStart s.cfg.transport }.inv = true := by
  obtain ⟨hset, hbus, hlines⟩ := State.inv_ready h hq
  obtain ⟨hready, hquiet⟩ := Bool.and_eq_true_iff.mp hbus
  obtain ⟨hspi, hopen, hbusy, hbuf⟩ := busQuiet_iff.mp hquiet
  have hpos := cfg_frameLen_pos hset.cfg
  cases ht : s.cfg.transport with
  | serial =>
    exact (State.inv_painting rfl).mpr ⟨{ hset with }, (busOk_pFetch rfl).mpr ⟨⟨hready, ht, hlen⟩, hpos,
      mayCarryPixel_iff.mpr ⟨hopen, hbusy, hbuf, .inl hspi⟩⟩, hlines⟩
  | batched =>
    exact (State.inv_painting rfl).mpr ⟨{ hset with }, (busOk_qOpen rfl).mpr ⟨⟨hready, ht, hlen⟩, hpos,
      Nat.zero_mod _, hquiet⟩, hlines⟩

/-- A command is accepted with the byte of its flag (R109, R110). -/
theorem startCommand_inv {c : Byte} {src : CmdSource} (hsrc : ∀ f b, src = .flag f b → c = cmdRom s.cfg f b) :
    (startCommand s c src).inv = true := by
  obtain ⟨hset, hbus, hlines⟩ := State.inv_ready h hq
  exact (State.inv_operating rfl).mpr ⟨{ hset with }, hbus, hlines, cmdSrcOk_iff.mpr fun f b hf _ => hsrc f b hf⟩

theorem enterSleep_inv : (enterSleep s).inv = true := by
  obtain ⟨hset, hbus, hlines⟩ := State.inv_ready h hq
  obtain ⟨hready, -⟩ := Bool.and_eq_true_iff.mp hbus
  have hbooted : (enterSleep s).booted = true := hready
  exact State.inv_iff_settled.mpr ⟨hbooted ▸ { hset with phase := rfl }, hbus, hlines, cmdSrcOk_of_seq rfl⟩

theorem setIndicator_inv (ch : Nat) (v : Byte) : (setIndicator ch v s).inv = true := by
  obtain ⟨hset, hbus, hlines⟩ := State.inv_ready h hq
  exact (State.inv_operating rfl).mpr ⟨{ hset with
    channels := List.length_set.trans hset.channels,
    kinds := all_set_of_all _ hset.kinds (indKindOk_indValue _ v) }, hbus, hlines, cmdSrcOk_of_seq rfl⟩

theorem enterMode_inv (m : LinkMode) : ((s.enterMode m).goto .ready).inv = true := by
  obtain ⟨hset, hbus, hlines⟩ := State.inv_ready h hq
  have hbus' : ((s.enterMode m).busReady && busQuiet (s.enterMode m)) = true := by
    rw [State.enterMode_busReady, busQuiet_enterMode, hbus]
  have hlines' := linesOperating_none (linesOperating_mode_change m hlines)
  exact (State.inv_operating rfl).mpr ⟨{ hset.enterMode m with }, hbus', hlines', cmdSrcOk_of_seq rfl⟩

end Acceptance

theorem startBoot_inv {s : State} (h : s.inv = true) (hq : s.seq = .wBoot) : (s.goto .b1Pins).inv = true := by
  obtain ⟨hset, hbus, hlines⟩ := (State.inv_booting (by rw [hq]; rfl)).mp h
  simp only [busOk, linesOk, hq] at hbus hlines
  exact (State.inv_booting rfl).mpr ⟨{ hset with }, hbus, hlines⟩

/-- EXITHALT is accepted in both ready states, which `bus_ready` tells apart (R162; log 25). -/
theorem startExithalt_inv {s : State} (h : s.inv = true) (hq : s.seq = .ready ∨ s.seq = .wBoot) :
    (s.goto .xIrq).inv = true := by
  have hset' {ph : Phase} {b : Bool} (hset : s.Settled ph b) (hready : s.busReady = b)
      (hph : ph = if b then .running else .boot) :
      (s.goto .xIrq).Settled (if s.busReady then .running else .boot) s.busReady := by
    subst hready hph
    exact { hset with }
  obtain hq | hq := hq
  · obtain ⟨hset, hbus, hlines⟩ := State.inv_ready h hq
    obtain ⟨hready, hquiet⟩ := Bool.and_eq_true_iff.mp hbus
    exact (State.inv_leaving rfl).mpr ⟨hset' hset hready rfl, hquiet, (if_pos hready).trans hlines⟩
  · obtain ⟨hset, hbus, hlines⟩ := (State.inv_booting (by rw [hq]; rfl)).mp h
    simp only [busOk, linesOk, hq, Bool.and_eq_true, Bool.not_eq_true'] at hbus hlines
    obtain ⟨hready, hquiet⟩ := hbus
    exact (State.inv_leaving rfl).mpr
      ⟨hset' hset hready rfl, hquiet, (if_neg (ne_true_of_eq_false hready)).trans hlines⟩

theorem exec_inv {i : Instr} {s t : State} (h : s.inv = true) (hexec : exec i s = .next t) : t.inv = true := by
  have ht := exec_next hexec
  subst ht
  cases i with
  | boot => exact startBoot_inv h (seq_of_execBoot hexec)
  | exithalt => exact startExithalt_inv h (seq_of_exec_exithalt hexec)
  | setind ch v => exact setIndicator_inv h (seq_of_execSetind hexec) ch.toNat v
  | paint clear =>
    obtain ⟨hq, -⟩ := acceptReady_eq_next.mp hexec
    exact startPaint_inv h hq clear (frameLen_le_of_exec_paint hexec)
  | idle =>
    obtain ⟨hq, -⟩ := acceptReady_eq_next.mp hexec
    exact enterSleep_inv h hq
  | sendcmd k =>
    obtain ⟨hq, -⟩ := acceptReady_eq_next.mp hexec
    exact startCommand_inv h hq nofun
  | setpwr b | setinv b | setallon b | setfliph b | setflipv b =>
    obtain ⟨hq, -⟩ := acceptReady_eq_next.mp hexec
    refine startCommand_inv h hq fun f b' hf => ?_
    cases hf
    rfl
  | entercmd | enterdata =>
    obtain ⟨hq, -⟩ := acceptReady_eq_next.mp hexec
    exact enterMode_inv h hq _

/-! ### The bus and the interrupt environment -/

/-- A change of the bus alone keeps the other parts of the invariant. -/
theorem State.inv_of_busOk {s : State} (h : s.inv = true) {spi tx : Bool} {buf : List Byte} {es : List Event}
    (hbus : busOk { s with spiBusy := spi, txBusy := tx, txBuf := buf, trace := es } = true) :
    { s with spiBusy := spi, txBusy := tx, txBuf := buf, trace := es }.inv = true := by
  obtain ⟨hset, -, hlines, hcmd⟩ := State.inv_iff_settled.mp h
  exact State.inv_iff_settled.mpr ⟨{ hset with }, hbus, hlines, hcmd⟩

/-- The end of a byte in flight leaves the shifter empty, which is allowed wherever a byte may be in flight (R98). -/
theorem busOk_serialDone {s : State} (h : busOk s = true) (hspi : s.spiBusy = true) (es : List Event) :
    busOk { s with spiBusy := false, trace := es } = true := by
  cases hq : s.seq with
  | b5Prog | cRestore =>
    cases ht : s.cfg.transport <;> simp_all [busOk, mayCarryCommand]
  | pFetch | pSend | pDrain => simp_all [busOk, mayCarryPixel]
  | cSend => cases ht : s.cfg.transport <;> simp_all [busOk, busQuiet]
  | _ => simp [busOk, busQuiet, hq, hspi] at h

theorem serialDone_inv {s : State} (h : s.inv = true) : (serialDone s).inv = true := by
  obtain ⟨hspi, hd⟩ | ⟨-, hd⟩ := serialDone_cases s <;> rw [hd]
  · obtain ⟨-, -, -, hbus, -⟩ := State.inv_iff.mp h
    exact State.inv_of_busOk h (busOk_serialDone hbus hspi _)
  · exact h

/-- The delivery of the batch leaves the buffer empty (R103). -/
theorem busOk_batchDone {s : State} (h : busOk s = true) (hbusy : s.txBusy = true) (es : List Event) :
    busOk { s with txBusy := false, txBuf := [], trace := es } = true := by
  cases hq : s.seq with
  | b5Prog | cRestore =>
    cases ht : s.cfg.transport <;> simp_all [busOk, mayCarryCommand]
  | qClose =>
    obtain ⟨hon, hck, hin, hspi, hone, -⟩ := (busOk_qClose hq).mp h
    have hopen : s.txOpen = false := by simpa [hbusy] using hone
    exact (busOk_qClose rfl).mpr ⟨hon, hck, hin, hspi, .inr rfl, by simp [hopen]⟩
  | pFetch | pSend | pDrain => simp [busOk, mayCarryPixel, hq, hbusy] at h
  | cSend => cases ht : s.cfg.transport <;> simp_all [busOk, busQuiet]
  | _ => simp [busOk, busQuiet, hq, hbusy] at h

theorem batchDone_inv {s : State} (h : s.inv = true) : (batchDone s).inv = true := by
  obtain ⟨hbusy, hd⟩ | ⟨-, hd⟩ := batchDone_cases s <;> rw [hd]
  · obtain ⟨-, -, -, hbus, -⟩ := State.inv_iff.mp h
    exact State.inv_of_busOk h (busOk_batchDone hbus hbusy _)
  · exact h

/-- A wake-up leads back to READY (R157). -/
theorem wake_inv {s : State} (h : s.inv = true) : (wake s).inv = true := by
  obtain ⟨hq, -, hw⟩ | ⟨-, hw⟩ := wake_cases s <;> rw [hw]
  · obtain ⟨hset, hbus, hlines, -⟩ := State.inv_iff_settled.mp h
    simp only [busOk, linesOk, hq] at hbus hlines
    have hbooted : s.booted = true := by
      obtain ⟨hready, -⟩ := Bool.and_eq_true_iff.mp hbus
      simp [State.booted, MicroState.inBoot, hq, hready]
    rw [hbooted] at hset
    exact (State.inv_operating rfl).mpr ⟨{ hset with phase := rfl }, hbus, hlines, cmdSrcOk_of_seq rfl⟩
  · exact h

/-! ### The host and the platform -/

/-- Outside a PAINT no part of the invariant but the canonical form speaks of FB (R50, R51). -/
theorem State.inv_withFb {s : State} (h : s.inv = true) (hp : s.painting = false) {fb : Memory} (hfb : fb.wf = true)
    (n : Nat) : { s with fb := fb, fbLen := n }.inv = true := by
  obtain ⟨hset, hbus, hlines, hcmd⟩ := State.inv_iff_settled.mp h
  refine State.inv_iff_settled.mpr ⟨{ hset with fb := hfb }, ?_, hlines, hcmd⟩
  cases hq : s.seq <;> simp only [State.painting, hq, Bool.true_eq_false] at hp <;> simp only [busOk, hq] at hbus ⊢ <;>
    exact hbus

theorem takeMove_inv {m : Move} {s t : State} (h : s.inv = true) (hmove : takeMove exec m s = .next t) :
    t.inv = true := by
  cases m with
  | block => exact microStep_inv h hmove
  | present w =>
    obtain ⟨i, -, hexec⟩ := presentWord_eq_next.mp hmove
    exact exec_inv h hexec
  | fbWrite i v =>
    obtain ⟨-, hfb, -⟩ := State.inv_iff.mp h
    obtain ⟨hp, -, rfl⟩ := hostFbWrite_eq_next.mp hmove
    exact State.inv_withFb h hp (Memory.write_wf i v hfb) s.fbLen
  | fbSupply bs =>
    obtain ⟨hp, rfl⟩ := hostFbSupply_eq_next.mp hmove
    exact State.inv_withFb h hp (Memory.ofBytes_wf bs) bs.length
  | platform i l =>
    obtain ⟨-, rfl⟩ := platformSet_eq_next.mp hmove
    exact h
  | serialDone => cases hmove; exact serialDone_inv h
  | batchDone => cases hmove; exact batchDone_inv h
  | irq => cases hmove; exact wake_inv h
  | button held => cases hmove; exact h
  | foreignDrive => cases hmove
  | reset p =>
    cases hmove
    obtain ⟨hwf, -⟩ := State.inv_iff.mp h
    exact State.resetWith_inv p hwf

/-- Settles O49: the block's micro-steps, the acceptance of each operation and the moves of the other agents each keep
the invariant, and taking a move off the schedule does not touch it. -/
theorem everyStepKeepsTheInvariant : Obligations.EveryStepKeepsTheInvariant := by
  unfold Obligations.EveryStepKeepsTheInvariant
  intro s t h hstep
  obtain ⟨-, hblock⟩ | ⟨m, rest, -, hmove⟩ := step_cases hstep
  · exact microStep_inv h hblock
  · exact takeMove_inv (s := { s with sched := rest }) h hmove

end Sys2Proof.Machine
end

section
/-! PROOF. The trace as a history (R27): every move but a reset appends to it, at most two events, and a read of FB is
appended alone, in a PAINT (R22, R52). -/

namespace Sys2Proof.Machine

/-- The trace of `t` goes on from that of `s` with at most two events; a read of FB among them is the only one. -/
def State.Continues (s t : State) : Prop :=
  ∃ es : List Event, t.trace = s.trace ++ es ∧ es.length ≤ 2 ∧
    ∀ i v, .fbRead i v ∈ es → es = [.fbRead i v] ∧ s.mayEmit (.fbRead i v)

theorem State.continues_silent {s t : State} (h : t.trace = s.trace) : s.Continues t :=
  ⟨[], by simp [h], by simp, by simp⟩

/-- The only step of two events in a state that may read FB would be one in a PAINT, where a step has one at most. -/
theorem State.BlockStep.continues {s t : State} (h : s.BlockStep t)
    (hone : s.painting = true → t.trace.length ≤ s.trace.length + 1) : s.Continues t := by
  obtain ⟨-, htr | ⟨e, he, htr⟩ | ⟨e, e', he, he', htr⟩⟩ := h
  · exact State.continues_silent htr
  · refine ⟨[e], htr, by simp, fun i v hmem => ?_⟩
    obtain rfl := List.mem_singleton.mp hmem
    exact ⟨rfl, he⟩
  · refine ⟨[e, e'], htr, le_rfl, fun i v hmem => ?_⟩
    have hread : s.mayEmit (.fbRead i v) := by
      obtain rfl | hmem := List.mem_cons.mp hmem
      · exact he
      · exact List.mem_singleton.mp hmem ▸ he'
    obtain ⟨hp, -⟩ := hread
    simpa [htr] using hone hp

theorem microQFill_trace (s : State) : (microQFill s).Ensures fun t => t.trace.length ≤ s.trace.length + 1 := by
  unfold microQFill; split <;> simp

theorem microQClose_trace (s : State) : (microQClose s).Ensures fun t => t.trace.length ≤ s.trace.length + 1 := by
  unfold microQClose
  split
  · simp
  · refine ensures_await.mpr fun _ => ?_
    split <;> simp [finishPaint]

/-- A micro-step of a PAINT appends one event at most (R143, R145). -/
theorem micro_trace_of_painting {s : State} (hp : s.painting = true) :
    (micro s).Ensures fun t => t.trace.length ≤ s.trace.length + 1 := by
  unfold micro
  cases hq : s.seq with
  | pFetch => simp [microPFetch]
  | pSend => simp [microPSend]
  | pDrain => simp [microPDrain, finishPaint]
  | qOpen => simp [microQOpen]
  | qFill => exact microQFill_trace s
  | qClose => exact microQClose_trace s
  | _ => simp [State.painting, hq] at hp

theorem microStep_continues {s t : State} (h : microStep s = .next t) : s.Continues t := by
  refine (microStep_blockStep h).continues fun hp => ?_
  obtain hgo | ⟨-, rfl⟩ := Micro.turn_eq_next.mp h
  · exact micro_trace_of_painting hp t hgo
  · exact Nat.le_succ _

theorem acceptState_continues (i : Instr) (s : State) : s.Continues (acceptState i s) := by
  obtain ⟨-, hblock⟩ := acceptState_noCompletion i s
  refine hblock.continues fun _ => ?_
  cases i with
  | entercmd | enterdata => cases ht : s.cfg.transport <;> simp [acceptState, State.enterMode, ht]
  | idle | setind => simp [acceptState, enterSleep, setIndicator]
  | boot | paint | setpwr | setinv | setallon | setfliph | setflipv | exithalt | sendcmd =>
    simp [acceptState, startCommand]

theorem wake_continues (s : State) : s.Continues (wake s) := by
  obtain ⟨-, -, hw⟩ | ⟨-, hw⟩ := wake_cases s <;> rw [hw]
  · exact ⟨[.irq, .wake], rfl, by simp, by simp⟩
  · exact State.continues_silent rfl

theorem takeMove_continues {m : Move} {s t : State} (hm : ∀ p, m ≠ .reset p) (h : takeMove exec m s = .next t) :
    s.Continues t := by
  cases m with
  | block => exact microStep_continues h
  | present w =>
    obtain ⟨i, -, hexec⟩ := presentWord_eq_next.mp h
    exact exec_next hexec ▸ acceptState_continues i s
  | fbWrite i v =>
    obtain ⟨-, -, rfl⟩ := hostFbWrite_eq_next.mp h
    exact State.continues_silent rfl
  | fbSupply bs =>
    obtain ⟨-, rfl⟩ := hostFbSupply_eq_next.mp h
    exact State.continues_silent rfl
  | platform i l =>
    obtain ⟨-, rfl⟩ := platformSet_eq_next.mp h
    exact State.continues_silent rfl
  | serialDone =>
    cases h
    obtain ⟨-, hd⟩ | ⟨-, hd⟩ := serialDone_cases s <;> rw [hd]
    · exact ⟨[.serial s.spiDr], rfl, by simp, by simp⟩
    · exact State.continues_silent rfl
  | batchDone =>
    cases h
    obtain ⟨-, hd⟩ | ⟨-, hd⟩ := batchDone_cases s <;> rw [hd]
    · exact ⟨[.batch s.cfg.periphAddr s.txBuf], rfl, by simp, by simp⟩
    · exact State.continues_silent rfl
  | irq => cases h; exact wake_continues s
  | button held => cases h; exact State.continues_silent rfl
  | foreignDrive => cases h
  | reset p => exact absurd rfl (hm p)

theorem step_continues {s t : State} (hreset : ∀ p rest, s.sched ≠ .reset p :: rest) (h : step s = .next t) :
    s.Continues t := by
  obtain ⟨-, hblock⟩ | ⟨m, rest, hsched, hmove⟩ := step_cases h
  · exact microStep_continues hblock
  · have hm (p : Platform) : m ≠ .reset p := fun hp => hreset p rest (hp ▸ hsched)
    have hcont := takeMove_continues hm hmove
    exact hcont

/-- Settles O57: what a step appends is what its one move appends. -/
theorem traceOnlyGrows : Obligations.TraceOnlyGrows := by
  unfold Obligations.TraceOnlyGrows
  intro s t hstep hreset
  obtain ⟨es, htr, hlen, -⟩ := step_continues hreset hstep
  exact ⟨es, htr, hlen⟩

end Sys2Proof.Machine
end

section
/-! PROOF. Where FB, the line latches, the gates and the enables are written: said once for every move but a reset; from
it R22, R37, R39 and R40. -/

namespace Sys2Proof.Machine

/-! ### What a move may write -/

/-- The moves and micro-states that may drive the DC line: boot steps 5a and 6, C_ENTER, C_RESTORE, ENTERCMD and
ENTERDATA (R37, R106, R108). -/
def State.mayDriveDc (s : State) (m : Move) : Prop :=
  s.seq = .b5Cmd ∨ s.seq = .b6Data ∨ s.seq = .cEnter ∨ s.seq = .cRestore ∨
    m = .present (encode .entercmd) ∨ m = .present (encode .enterdata)

/-- The DC line is driven, from `s` to `t`, and reported. -/
def State.DrivesDc (s t : State) : Prop := ∃ v, t.dc = .driven v ∧ t.trace = s.trace ++ [.pin (.dc v)]

/-- What the move `m` from `s` to `t` may write: each of these is as it was, or is written where the spec says, with the
value it says. -/
structure State.Writes (s : State) (m : Move) (t : State) : Prop where
  fb : (t.fb = s.fb ∧ t.fbLen = s.fbLen) ∨ (∃ i v, m = .fbWrite i v) ∨ ∃ bs, m = .fbSupply bs := by
    exact .inl ⟨rfl, rfl⟩
  rst : t.rst = s.rst ∨ (s.seq = .b1Pins ∧ t.rst = .driven s.cfg.pinInit.rst) ∨
    ((s.seq = .b3RstLo ∨ s.seq = .b3RstHi) ∧ ∃ v, t.rst = .driven v ∧ t.trace = s.trace ++ [.pin (.rst v)]) := by
    exact .inl rfl
  cs : t.cs = s.cs ∨ (s.seq = .b1Pins ∧ t.cs = .driven s.cfg.pinInit.cs) ∨
    (s.seq = .b4Cs ∧ ∃ v, t.cs = .driven v ∧ t.trace = s.trace ++ [.pin (.cs v)]) := by
    exact .inl rfl
  dc : t.dc = s.dc ∨ (s.seq = .b1Pins ∧ t.dc = .driven s.cfg.pinInit.dc) ∨ (s.mayDriveDc m ∧ s.DrivesDc t) := by
    exact .inl rfl
  pwrGated : t.pwrGated = s.pwrGated ∨ (s.seq = .b7Pwr ∧ t.pwrGated = s.cfg.unusedDomains) := by exact .inl rfl
  irqEn : t.irqEn = s.irqEn ∨ (s.seq = .xIrq ∧ t.irqEn = false) ∨ ∃ i l, m = .platform i l := by exact .inl rfl
  hostlinkEn : t.hostlinkEn = s.hostlinkEn ∨ (s.seq = .xLink ∧ t.hostlinkEn = false) ∨ ∃ i l, m = .platform i l := by
    exact .inl rfl

/-- FB, RST, CS, the gates and the enables are as they were. -/
def State.Kept (s t : State) : Prop :=
  t.fb = s.fb ∧ t.fbLen = s.fbLen ∧ t.rst = s.rst ∧ t.cs = s.cs ∧ t.pwrGated = s.pwrGated ∧ t.irqEn = s.irqEn ∧
    t.hostlinkEn = s.hostlinkEn

theorem State.Kept.writes {s t : State} {m : Move} (h : s.Kept t)
    (hdc : t.dc = s.dc ∨ (s.mayDriveDc m ∧ s.DrivesDc t)) : s.Writes m t := by
  obtain ⟨hfb, hlen, hrst, hcs, hpwr, hirq, hlink⟩ := h
  exact ⟨.inl ⟨hfb, hlen⟩, .inl hrst, .inl hcs, hdc.imp_right .inr, .inl hpwr, .inl hirq, .inl hlink⟩

theorem Micro.Ensures.imp {m : Micro} {P Q : State → Prop} (h : m.Ensures P) (hPQ : ∀ t, P t → Q t) : m.Ensures Q :=
  fun t ht => hPQ t (h t ht)

/-! ### The micro-steps that write none of these -/

/-- FB, RST, CS, the gates and the enables are as they were, and so is DC. -/
def State.KeptAll (s t : State) : Prop := s.Kept t ∧ t.dc = s.dc

theorem microB1Safe_keptAll (s : State) : (microB1Safe s).Ensures s.KeptAll := by
  unfold microB1Safe
  split <;> simp [State.KeptAll, State.Kept, enterSafeHalt]

theorem microB2Bus_keptAll (s : State) : (microB2Bus s).Ensures s.KeptAll := by
  unfold microB2Bus initBus
  split <;> simp [State.KeptAll, State.Kept]

theorem startBootByte_keptAll (b : Byte) (s : State) : (startBootByte b s).Ensures s.KeptAll := by
  unfold startBootByte
  split <;> simp [State.KeptAll, State.Kept]

theorem microB5Prog_keptAll (s : State) : (microB5Prog s).Ensures s.KeptAll := by
  unfold microB5Prog
  refine ensures_await.mpr fun _ => ?_
  split
  · exact startBootByte_keptAll _ s
  · simp [State.KeptAll, State.Kept]

theorem microCSend_keptAll (s : State) : (microCSend s).Ensures s.KeptAll := by
  unfold microCSend
  split <;> simp [State.KeptAll, State.Kept]

theorem microQFill_keptAll (s : State) : (microQFill s).Ensures s.KeptAll := by
  unfold microQFill
  split <;> simp [State.KeptAll, State.Kept]

theorem microQClose_keptAll (s : State) : (microQClose s).Ensures s.KeptAll := by
  unfold microQClose
  split
  · simp [State.KeptAll, State.Kept]
  · refine ensures_await.mpr fun _ => ?_
    split <;> simp [State.KeptAll, State.Kept, finishPaint]

/-! ### Entering a mode -/

theorem enterMode_writes {s t : State} {m : Move} (v : LinkMode) (hm : s.mayDriveDc m) (hkept : s.Kept t)
    (hdc : t.dc = (s.enterMode v).dc) (htr : t.trace = (s.enterMode v).trace) : s.Writes m t := by
  refine hkept.writes ?_
  cases ht : s.cfg.transport with
  | serial =>
    rw [s.enterMode_serial v ht] at hdc htr
    exact .inr ⟨hm, v, hdc, htr⟩
  | batched =>
    rw [s.enterMode_batched v ht] at hdc
    exact .inl hdc

theorem microCEnter_writes {s : State} {m : Move} (hq : s.seq = .cEnter) : (microCEnter s).Ensures (s.Writes m) := by
  have hm : s.mayDriveDc m := by simp [State.mayDriveDc, hq]
  unfold microCEnter
  split
  · exact Micro.ensures_go.mpr (enterMode_writes .command hm (by simp [State.Kept]) rfl rfl)
  · simp only [Micro.ensures_andThen, txBegin_ensures, txWrite_ensures, Micro.ensures_go]
    intros
    exact enterMode_writes .command hm (by simp [State.Kept]) rfl rfl

theorem microCRestore_writes {s : State} {m : Move} (hq : s.seq = .cRestore) :
    (microCRestore s).Ensures (s.Writes m) := by
  have hm : s.mayDriveDc m := by simp [State.mayDriveDc, hq]
  have hfinish : s.Writes m (finishCommand s) :=
    enterMode_writes .data hm (by simp [State.Kept, finishCommand]) rfl rfl
  unfold microCRestore
  split <;> exact ensures_await.mpr fun _ => Micro.ensures_go.mpr hfinish

/-! ### All moves -/

/-- One case for each micro-state of R31. -/
theorem micro_writes (s : State) (m : Move) : (micro s).Ensures (s.Writes m) := by
  have hkept {k : Micro} (h : k.Ensures s.KeptAll) : k.Ensures (s.Writes m) :=
    h.imp fun t ⟨hkept, hdc⟩ => hkept.writes (.inl hdc)
  unfold micro
  cases hq : s.seq with
  | wBoot | ready | iSleep | hSafe | hLoader => exact Micro.ensures_wait
  | b1Pins =>
    exact Micro.ensures_go.mpr
      { rst := .inr (.inl ⟨hq, rfl⟩), cs := .inr (.inl ⟨hq, rfl⟩), dc := .inr (.inl ⟨hq, rfl⟩) }
  | b1Safe => exact hkept (microB1Safe_keptAll s)
  | b2Bus => exact hkept (microB2Bus_keptAll s)
  | b3RstLo => exact Micro.ensures_go.mpr { rst := .inr (.inr ⟨.inl hq, .low, rfl, rfl⟩) }
  | b3RstHi => exact Micro.ensures_go.mpr { rst := .inr (.inr ⟨.inr hq, .high, rfl, rfl⟩) }
  | b4Cs => exact Micro.ensures_go.mpr { cs := .inr (.inr ⟨hq, .asserted, rfl, rfl⟩) }
  | b5Cmd =>
    exact Micro.ensures_go.mpr
      (enterMode_writes .command (by simp [State.mayDriveDc, hq]) (by simp [State.Kept]) rfl rfl)
  | b5Prog => exact hkept (microB5Prog_keptAll s)
  | b6Data =>
    exact Micro.ensures_go.mpr (enterMode_writes .data (by simp [State.mayDriveDc, hq]) (by simp [State.Kept]) rfl rfl)
  | b7Pwr => exact Micro.ensures_go.mpr { pwrGated := .inr ⟨hq, rfl⟩ }
  | cEnter => exact microCEnter_writes hq
  | cSend => exact hkept (microCSend_keptAll s)
  | cRestore => exact microCRestore_writes hq
  | pFetch => exact hkept (by simp [microPFetch, State.KeptAll, State.Kept])
  | pSend => exact hkept (by simp [microPSend, State.KeptAll, State.Kept])
  | pDrain => exact hkept (by simp [microPDrain, finishPaint, State.KeptAll, State.Kept])
  | qOpen => exact hkept (by simp [microQOpen, State.KeptAll, State.Kept])
  | qFill => exact hkept (microQFill_keptAll s)
  | qClose => exact hkept (microQClose_keptAll s)
  | xIrq => exact Micro.ensures_go.mpr { irqEn := .inr (.inl ⟨hq, rfl⟩) }
  | xLink => exact Micro.ensures_go.mpr { hostlinkEn := .inr (.inl ⟨hq, rfl⟩) }
  | b3Hold | b3Settle | xHandoff => exact Micro.ensures_go.mpr {}

theorem microStep_writes {s t : State} (m : Move) (h : microStep s = .next t) : s.Writes m t := by
  obtain hgo | ⟨-, rfl⟩ := Micro.turn_eq_next.mp h
  · exact micro_writes s m t hgo
  · exact {}

/-- Of the operations only ENTERCMD and ENTERDATA write any of these when they are accepted. -/
theorem acceptState_writes (i : Instr) (s : State) : s.Writes (.present (encode i)) (acceptState i s) := by
  cases i with
  | entercmd | enterdata =>
    exact enterMode_writes _ (by simp [State.mayDriveDc]) (by simp [State.Kept, acceptState]) rfl rfl
  | boot | paint | setpwr | setinv | setallon | setfliph | setflipv | idle | setind | exithalt | sendcmd => exact {}

theorem takeMove_writes {m : Move} {s t : State} (hm : ∀ p, m ≠ .reset p) (h : takeMove exec m s = .next t) :
    s.Writes m t := by
  cases m with
  | block => exact microStep_writes .block h
  | present w =>
    obtain ⟨i, hdecode, hexec⟩ := presentWord_eq_next.mp h
    obtain ⟨rfl, -⟩ := eq_encode_of_decodeFor hdecode
    exact exec_next hexec ▸ acceptState_writes i s
  | fbWrite i v =>
    obtain ⟨-, -, rfl⟩ := hostFbWrite_eq_next.mp h
    exact { fb := .inr (.inl ⟨i, v, rfl⟩) }
  | fbSupply bs =>
    obtain ⟨-, rfl⟩ := hostFbSupply_eq_next.mp h
    exact { fb := .inr (.inr ⟨bs, rfl⟩) }
  | platform i l =>
    obtain ⟨-, rfl⟩ := platformSet_eq_next.mp h
    exact { irqEn := .inr (.inr ⟨i, l, rfl⟩), hostlinkEn := .inr (.inr ⟨i, l, rfl⟩) }
  | serialDone =>
    cases h
    obtain ⟨-, hd⟩ | ⟨-, hd⟩ := serialDone_cases s <;> rw [hd] <;> exact {}
  | batchDone =>
    cases h
    obtain ⟨-, hd⟩ | ⟨-, hd⟩ := batchDone_cases s <;> rw [hd] <;> exact {}
  | irq =>
    cases h
    obtain ⟨-, -, hw⟩ | ⟨-, hw⟩ := wake_cases s <;> rw [hw] <;> exact {}
  | button held => cases h; exact {}
  | foreignDrive => cases h
  | reset p => exact absurd rfl (hm p)

/-- A step writes what its move may write: the next one scheduled, or a turn of the block. -/
theorem step_writes {s t : State} (hreset : ∀ p rest, s.sched ≠ .reset p :: rest) (h : step s = .next t) :
    ∃ m rest, (m = .block ∨ s.sched = m :: rest) ∧ s.Writes m t := by
  obtain ⟨-, hblock⟩ | ⟨m, rest, hsched, hmove⟩ := step_cases h
  · exact ⟨.block, [], .inl rfl, microStep_writes .block hblock⟩
  · have hm (p : Platform) : m ≠ .reset p := fun hp => hreset p rest (hp ▸ hsched)
    have hwrites := takeMove_writes hm hmove
    exact ⟨m, rest, .inr hsched, { hwrites with }⟩

end Sys2Proof.Machine
end

section
/-! PROOF. The line latches (R37), the frame buffer (R22), the gates and the enables (R39, R40): the writes of
`State.Writes`, and what the invariant says of the lines. -/

namespace Sys2Proof.Machine

/-! ### The gates and the enables -/

/-- Settles O59: a step that changes a gate or an enable is one of those `State.Writes` names. -/
theorem gatesAndEnablesAreWrittenOnce : Obligations.GatesAndEnablesAreWrittenOnce := by
  unfold Obligations.GatesAndEnablesAreWrittenOnce
  intro s t hstep hreset
  obtain ⟨m, rest, hm, hwrites⟩ := step_writes hreset hstep
  refine ⟨hwrites.pwrGated.resolve_left, fun hplatform => ?_⟩
  have hother : ¬∃ i l, m = .platform i l := by
    rintro ⟨i, l, rfl⟩
    exact hplatform i l rest (hm.resolve_left nofun)
  exact ⟨fun hne => (hwrites.irqEn.resolve_left hne).resolve_right hother,
    fun hne => (hwrites.hostlinkEn.resolve_left hne).resolve_right hother⟩

/-! ### The frame buffer -/

theorem step_reset {s : State} {p : Platform} {rest : List Move} (hsched : s.sched = .reset p :: rest) :
    step s = .next (resetMove p { s with sched := rest }) := step_cons hsched

/-- The one read of a step that reads FB, whatever else its events may be: a reset leaves no event. -/
theorem step_fbRead {s t : State} {es : List Event} {i : Nat} {v : Byte} (hstep : step s = .next t)
    (htr : t.trace = s.trace ++ es) (hmem : .fbRead i v ∈ es) :
    es = [.fbRead i v] ∧ s.mayEmit (.fbRead i v) := by
  by_cases hreset : ∀ p rest, s.sched ≠ .reset p :: rest
  · obtain ⟨es', htr', -, hread⟩ := step_continues hreset hstep
    obtain rfl : es = es' := List.append_cancel_left (htr.symm.trans htr')
    exact hread i v hmem
  · push Not at hreset
    obtain ⟨p, rest, hsched⟩ := hreset
    obtain ⟨⟩ := (step_reset hsched).symm.trans hstep
    obtain ⟨-, rfl⟩ : s.trace = [] ∧ es = [] := by simpa [resetMove, State.resetWith] using htr
    cases hmem

/-- Settles O54: FB is written by the host's moves only, and every read is one the block may emit. -/
theorem blockNeverWritesTheFrameBuffer : Obligations.BlockNeverWritesTheFrameBuffer := by
  unfold Obligations.BlockNeverWritesTheFrameBuffer
  intro s t _ hstep
  refine ⟨fun hwrite hsupply hreset => ?_, fun es i v htr hmem => step_fbRead hstep htr hmem⟩
  obtain ⟨m, rest, hm, hwrites⟩ := step_writes hreset hstep
  obtain ⟨hfb, hlen⟩ | ⟨i, v, rfl⟩ | ⟨bs, rfl⟩ := hwrites.fb
  · exact ⟨hlen, fun a => by rw [hfb]⟩
  · exact absurd (hm.resolve_left nofun) (hwrite i v rest)
  · exact absurd (hm.resolve_left nofun) (hsupply bs rest)

/-! ### The line latches -/

/-- A machine that has completed BOOT operates, sleeps, or leaves with its lines as they were (R41). -/
theorem linesOperating_of_booted {s : State} (h : linesOk s = true) (hbooted : s.booted = true) :
    linesOperating s none = true := by
  obtain ⟨hnot, hready⟩ := Bool.and_eq_true_iff.mp hbooted
  cases hq : s.seq with
  | cSend | cRestore =>
    simp only [linesOk, hq] at h
    exact linesOperating_none h
  | ready | cEnter | pFetch | pSend | pDrain | qOpen | qFill | qClose | iSleep => simpa only [linesOk, hq] using h
  | xIrq | xLink | xHandoff | hLoader => simpa only [linesOk, hq, hready, if_true] using h
  | _ => simp [hq, MicroState.inBoot] at hnot

/-- From boot step 5a on, and in a machine that has completed BOOT, RST is high and CS asserted. -/
theorem lines_from_b5Cmd {s : State} (h : linesOk s = true)
    (hq : s.booted = true ∨ s.seq = .b5Cmd ∨ s.seq = .b5Prog ∨ s.seq = .b6Data ∨ s.seq = .b7Pwr) :
    s.rst = .driven .high ∧ s.cs = .driven .asserted := by
  obtain hbooted | hq | hq | hq | hq := hq
  · obtain ⟨hrst, hcs, -⟩ := linesOperating_lines (linesOperating_of_booted h hbooted)
    exact ⟨hrst, hcs⟩
  · simp only [linesOk, hq] at h
    obtain ⟨hrst, hcs, -⟩ := linesBooting_iff.mp h
    exact ⟨hrst, hcs⟩
  all_goals
    simp only [linesOk, hq] at h
    obtain ⟨hrst, hcs, -⟩ := linesOperating_lines h
    exact ⟨hrst, hcs⟩

theorem rst_from_b3Settle {s : State} (h : linesOk s = true) (hq : s.seq = .b3Settle ∨ s.seq = .b4Cs) :
    s.rst = .driven .high := by
  obtain hq | hq := hq
  all_goals
    simp only [linesOk, hq] at h
    obtain ⟨hrst, -⟩ := linesBooting_iff.mp h
    exact hrst

theorem seq_ne_of_booted {s : State} {q : MicroState} (h : s.booted = true) (hq : q.inBoot = true) : s.seq ≠ q := by
  rintro rfl
  simp [State.booted, hq] at h

theorem State.Writes.cs_kept {s t : State} {m : Move} (h : s.Writes m t) (hpins : s.seq ≠ .b1Pins)
    (hcs : s.seq ≠ .b4Cs) : t.cs = s.cs := by
  obtain heq | ⟨hq, -⟩ | ⟨hq, -⟩ := h.cs
  · exact heq
  · exact absurd hq hpins
  · exact absurd hq hcs

theorem State.Writes.rst_kept {s t : State} {m : Move} (h : s.Writes m t) (hpins : s.seq ≠ .b1Pins)
    (hlo : s.seq ≠ .b3RstLo) (hhi : s.seq ≠ .b3RstHi) : t.rst = s.rst := by
  obtain heq | ⟨hq, -⟩ | ⟨hq | hq, -⟩ := h.rst
  · exact heq
  · exact absurd hq hpins
  · exact absurd hq hlo
  · exact absurd hq hhi

/-- CS stays asserted once boot step 4 is done. -/
theorem cs_stays_asserted {s t : State} {m : Move} (hlines : linesOk s = true) (hwrites : s.Writes m t)
    (hq : s.booted = true ∨ s.seq = .b5Cmd ∨ s.seq = .b5Prog ∨ s.seq = .b6Data ∨ s.seq = .b7Pwr) :
    s.cs = .driven .asserted ∧ t.cs = .driven .asserted := by
  obtain ⟨-, hcs⟩ := lines_from_b5Cmd hlines hq
  have hne : s.seq ≠ .b1Pins ∧ s.seq ≠ .b4Cs := by
    obtain hbooted | hq | hq | hq | hq := hq
    · exact ⟨seq_ne_of_booted hbooted rfl, seq_ne_of_booted hbooted rfl⟩
    all_goals simp [hq]
  obtain ⟨hpins, hb4⟩ := hne
  exact ⟨hcs, (hwrites.cs_kept hpins hb4).trans hcs⟩

/-- RST stays high once boot step 3c is done. -/
theorem rst_stays_high {s t : State} {m : Move} (hlines : linesOk s = true) (hwrites : s.Writes m t)
    (hq : s.booted = true ∨ s.seq = .b3Settle ∨ s.seq = .b4Cs ∨ s.seq = .b5Cmd ∨ s.seq = .b5Prog ∨ s.seq = .b6Data ∨
      s.seq = .b7Pwr) : s.rst = .driven .high ∧ t.rst = .driven .high := by
  have hrst : s.rst = .driven .high := by
    obtain hbooted | hq | hq | hlater := hq
    · obtain ⟨hrst, -⟩ := lines_from_b5Cmd hlines (.inl hbooted)
      exact hrst
    · exact rst_from_b3Settle hlines (.inl hq)
    · exact rst_from_b3Settle hlines (.inr hq)
    · obtain ⟨hrst, -⟩ := lines_from_b5Cmd hlines (.inr hlater)
      exact hrst
  have hne : s.seq ≠ .b1Pins ∧ s.seq ≠ .b3RstLo ∧ s.seq ≠ .b3RstHi := by
    obtain hbooted | hq | hq | hq | hq | hq | hq := hq
    · exact ⟨seq_ne_of_booted hbooted rfl, seq_ne_of_booted hbooted rfl, seq_ne_of_booted hbooted rfl⟩
    all_goals simp [hq]
  obtain ⟨hpins, hlo, hhi⟩ := hne
  exact ⟨hrst, (hwrites.rst_kept hpins hlo hhi).trans hrst⟩

theorem lines_undriven {s : State} (h : linesOk s = true) (hq : s.seq = .wBoot ∨ s.seq = .b1Pins) :
    s.rst = .undriven ∧ s.cs = .undriven ∧ s.dc = .undriven := by
  have hundriven : linesUndriven s = true := by obtain hq | hq := hq <;> simpa only [linesOk, hq] using h
  simp only [linesUndriven, Bool.and_eq_true, decide_eq_true_eq, and_assoc] at hundriven
  obtain ⟨hrst, hcs, hdc, -⟩ := hundriven
  exact ⟨hrst, hcs, hdc⟩

/-- Settles O53: a latch that changes is written where `State.Writes` says, and the invariant gives the levels that are
never written again. -/
theorem lineLatchesAreWrittenOnlyWhereStated : Obligations.LineLatchesAreWrittenOnlyWhereStated := by
  unfold Obligations.LineLatchesAreWrittenOnlyWhereStated
  refine ⟨fun s hinv hq => ?_, fun s t hinv hstep hreset => ?_⟩ <;>
    obtain ⟨-, -, -, -, hlines, -⟩ := State.inv_iff.mp hinv
  · exact lines_undriven hlines hq
  · obtain ⟨m, rest, hm, hwrites⟩ := step_writes hreset hstep
    refine ⟨hwrites.rst.resolve_left, hwrites.cs.resolve_left, fun hne => ?_, cs_stays_asserted hlines hwrites,
      rst_stays_high hlines hwrites⟩
    obtain hpins | ⟨hmay, hdrives⟩ := hwrites.dc.resolve_left hne
    · exact .inl hpins
    · refine .inr ⟨?_, hdrives⟩
      obtain hq | hq | hq | hq | rfl | rfl := hmay
      · exact .inl hq
      · exact .inr (.inl hq)
      · exact .inr (.inr (.inl hq))
      · exact .inr (.inr (.inr (.inl hq)))
      · exact .inr (.inr (.inr (.inr ⟨rest, .inl (hm.resolve_left nofun)⟩)))
      · exact .inr (.inr (.inr (.inr ⟨rest, .inr (hm.resolve_left nofun)⟩)))

end Sys2Proof.Machine
end
